-- ==== Sys2Proof/Word.lean ====
section
/-! DEFINITION. The word types of the block: a byte is the only unit that crosses the bus (R10). -/

namespace Sys2Proof

/-- A byte, "8 bits and … the only unit that crosses the bus" (R10). -/
abbrev Byte := BitVec 8

/-- The 16-bit words of the block: `hold_cnt`, `wake_to`, `mux_div` (R9) and the port `adc_in` (R63). -/
abbrev Half := BitVec 16

end Sys2Proof
end

