-- ==== Sys2Proof/Syntax.lean ====
section
/-! DEFINITION. The operations of the block: the twelve messages of the catalog and the six raw bus conditions
(`Instr`, one constructor per row of the opcode table), and the inputs with which an agent takes a step (`Event`). -/

namespace Sys2Proof

/-- The two closed sets of operations of R2 and R143, one constructor per row of the opcode table. A message's
constructor carries the operand bytes of R123; `drx` carries the received byte `bus_rx`. -/
inductive Instr where
  /-- no-op, ordinal 0x00 (R173) -/
  | nop
  /-- remote-reset, ordinal 0x01 (R174) -/
  | reset
  /-- info-request, ordinal 0x02 (R175) -/
  | info
  /-- start-recording, ordinal 0x03 (R176) -/
  | recStart
  /-- stop-recording, ordinal 0x04 (R177) -/
  | recStop
  /-- set-brightness, ordinal 0x05 (R178) -/
  | setBrightness (value : Byte)
  /-- set-clock, ordinal 0x06 (R179); the date-time bytes in index order -/
  | setClock (dt : List Byte)
  /-- set-alarm, ordinal 0x07 (R180); the date-time bytes in index order -/
  | setAlarm (dt : List Byte)
  /-- haptic-pulse, ordinal 0x08 (R181) -/
  | haptic (intensity duration : Byte)
  /-- haptic-ack received from the host, ordinal 0x09 (R182) -/
  | hapticAck
  /-- haptic-fail received from the host, ordinal 0x0A (R183) -/
  | hapticFail
  /-- power-down-request, ordinal 0x0B (R184) -/
  | powerDown
  /-- data-byte-to-send (R203, R209) -/
  | dts
  /-- data-byte-received (R206, R207) -/
  | drx (byte : Byte)
  /-- start-of-read-requested (R202) -/
  | sor
  /-- start-of-write-requested (R204) -/
  | sow
  /-- end-of-transaction (R208) -/
  | eot
  /-- a condition that is none of the five (R212) -/
  | other
  deriving DecidableEq, Repr

/-- The four status flags the environment may set (R262); `rec` and `mode` cannot be set this way. -/
inductive EnvFlag where
  | usb
  | charging
  | lowBattery
  | alarm
  deriving DecidableEq, Repr

/-- Which agent takes the next step, with all the inputs of that step (R15, R16). -/
inductive Event where
  /-- agent `Bus`: the condition vector, dts, drx, sor, sow, eot from bit 4 down to bit 0, and the received byte (R60) -/
  | bus (cond : BitVec 5) (rx : Byte)
  /-- agent `Tick` (R285) -/
  | tick
  /-- agent `Wake` (R322) -/
  | wake
  /-- agent `Main`: the sampled inputs `btn_raw`, `adc_in`, `host_released` (R63) -/
  | main (btnRaw : Byte) (adcIn : Half) (hostReleased : Bool)
  /-- agent `Env`, `SetFlag(f, b)` (R262) -/
  | setFlag (f : EnvFlag) (b : Bool)
  /-- agent `Env`, `ClockAdvance(v)` (R263) -/
  | clockAdvance (v : List Byte)
  /-- agent `Env`, `HapticDone(ok)` (R264) -/
  | hapticDone (ok : Bool)
  /-- agent `Reset`: the input `rst` is asserted (R361) -/
  | reset
  deriving DecidableEq, Repr, Inhabited

end Sys2Proof
end

