-- ==== Sys2Proof/Config.lean ====
section
/-! DEFINITION. The implementation parameters of R8, and the one free value: the inputs that arrive when the queue of
inputs is empty. -/

namespace Sys2Proof

/-- The build-time parameters of R8. "OPEN means … the model takes the parameter as an argument": they stand in State
as a value no step changes (log 1). -/
structure Params where
  /-- BUS_ADDR, 7 bits; used by no rule (D1) -/
  busAddr : BitVec 7
  /-- N_BTN, 1..8 -/
  nBtn : Nat
  /-- PWR_BTN, below N_BTN -/
  pwrBtn : Nat
  /-- DT_BYTES, at least 1 -/
  dtBytes : Nat
  /-- V_OFF, hundredths of a volt, 0..65280 -/
  vOff : Nat
  /-- TICK_MS, positive; appears in no rule (R286) -/
  tickMs : Nat
  /-- DEBOUNCE_TICKS, 1..255 -/
  debounceTicks : Nat
  /-- WAKE_HOLD_TICKS, 1..65534 -/
  wakeHoldTicks : Nat
  /-- WAKE_TIMEOUT_TICKS, above WAKE_HOLD_TICKS, at most 65535 -/
  wakeTimeoutTicks : Nat
  /-- LONG_PRESS_TICKS, 1..65534 -/
  longPressTicks : Nat
  /-- ANALOG_PERIOD_TICKS, 1..65535 -/
  analogPeriodTicks : Nat
  /-- WAKE_HAPTIC: none, or (intensity, duration) -/
  wakeHaptic : Option (Byte × Byte)
  deriving DecidableEq, Repr

/-- `SR_BYTES = 6 + DT_BYTES` (R8, R110). -/
def Params.srBytes (p : Params) : Nat := 6 + p.dtBytes

/-- `CAP = max(3, 1 + DT_BYTES)` (R8, R122). -/
def Params.cap (p : Params) : Nat := max 3 (1 + p.dtBytes)

/-- `N_ORD`, the number of ordinals in the catalog (R8, R121). -/
def nOrd : Nat := 12

/-- `T_OFF`, the temperature offset in half degrees Celsius (R8). -/
def tOff : Int := 40

/-- The values the spec's examples use (R8, `95_test_vectors.md`). DESIGN CHOICE, unsafe: the parameters of the machine
after reset; BUS_ADDR has neither value nor example and is 0 (log 1). No statement rests on them. -/
def Params.specExample : Params where
  busAddr := 0
  nBtn := 8
  pwrBtn := 0
  dtBytes := 4
  vOff := 200
  tickMs := 10
  debounceTicks := 3
  wakeHoldTicks := 40
  wakeTimeoutTicks := 3000
  longPressTicks := 300
  analogPeriodTicks := 1
  wakeHaptic := none

/-- The free inputs: the agent and the inputs of the n-th step for which no input stands in the queue. Nothing
constrains them: "which agent steps next" and every input are any value (R16, R331, U12, U13, U17; log 2). -/
opaque Config.freeEvent : Nat → Event

end Sys2Proof
end

