-- ==== Sys2Proof/WellFormed.lean ====
section
/-! DEFINITION. Well-formedness: of the parameters (R8, R364), of an instruction's operands (R120, R122) and of an
agent's inputs (R63, R263). -/

namespace Sys2Proof

/-- The constraints on the parameters of R8 and R364 item 1. -/
abbrev Params.wf (p : Params) : Prop :=
  (1 ≤ p.nBtn ∧ p.nBtn ≤ 8) ∧ p.pwrBtn < p.nBtn ∧ 1 ≤ p.dtBytes ∧ p.vOff ≤ 65280 ∧ 0 < p.tickMs ∧
  (1 ≤ p.debounceTicks ∧ p.debounceTicks ≤ 255) ∧ (1 ≤ p.wakeHoldTicks ∧ p.wakeHoldTicks ≤ 65534) ∧
  (p.wakeHoldTicks < p.wakeTimeoutTicks ∧ p.wakeTimeoutTicks ≤ 65535) ∧
  (1 ≤ p.longPressTicks ∧ p.longPressTicks ≤ 65534) ∧ (1 ≤ p.analogPeriodTicks ∧ p.analogPeriodTicks ≤ 65535)

/-- An instruction's operands have the widths of R121 and R122: a date-time has `DT_BYTES` bytes; every other operand is
one byte by its type. -/
def Instr.wf (dtBytes : Nat) : Instr → Bool
  | .nop => true
  | .reset => true
  | .info => true
  | .recStart => true
  | .recStop => true
  | .setBrightness _ => true
  | .setClock dt => dt.length == dtBytes
  | .setAlarm dt => dt.length == dtBytes
  | .haptic _ _ => true
  | .hapticAck => true
  | .hapticFail => true
  | .powerDown => true
  | .dts => true
  | .drx _ => true
  | .sor => true
  | .sow => true
  | .eot => true
  | .other => true

/-- An agent's inputs have the widths of R63 and R263: `btn_raw` has `N_BTN` bits, `ClockAdvance` carries `DT_BYTES`
bytes. The machine runs on the others as well, reading only the bits and bytes that exist (log 9). -/
def Event.wf (p : Params) : Event → Bool
  | .bus _ _ => true
  | .tick => true
  | .wake => true
  | .main btnRaw _ _ => btnRaw >>> p.nBtn == 0#8
  | .setFlag _ _ => true
  | .clockAdvance v => v.length == p.dtBytes
  | .hapticDone _ => true
  | .reset => true

end Sys2Proof
end

