-- ==== Sys2Proof/Decode.lean ====
section
/-! DEFINITION. The encodings of `30_encoding.md`: the ordinals and sizes of the messages (R121, R122), the validation of
a pending command (R171), operand assembly (R123), the priority decode of the raw bus conditions (R130), the encoder,
and the decoder of an opcode-table word. -/

namespace Sys2Proof

/-- Why the command service drops a pending command without an instruction (R171). -/
inductive DecodeError where
  /-- ordinal 0x0C to 0xFF (R125) -/
  | unknownOrdinal
  /-- fewer bytes than `size(ord)` (R125) -/
  | truncatedPayload
  deriving DecidableEq, Repr

/-- `size(ord)` of R121 and R122: the full length in bytes, ordinal included; none for an unrecognised ordinal. -/
def messageSize (dtBytes : Nat) (ord : Byte) : Option Nat :=
  if ord = 0x05#8 then some 2
  else if ord = 0x06#8 ∨ ord = 0x07#8 then some (1 + dtBytes)
  else if ord = 0x08#8 then some 3
  else if ord.toNat < nOrd then some 1
  else none

/-- `Validate(ord, len)` of R171, less the wrong-direction test: the ordinals 0x09 and 0x0A are instructions whose
meaning is the drop (R182, R183), and their size 1 is met by every command. -/
def validate (dtBytes : Nat) (ord : Byte) (len : Nat) : Except DecodeError Unit :=
  match messageSize dtBytes ord with
  | none => .error .unknownOrdinal
  | some size =>
    if ord = 0x09#8 ∨ ord = 0x0A#8 then .ok ()
    else if len < size then .error .truncatedPayload
    else .ok ()

/-- Byte `k` of a buffer, 0x00 past its end. -/
def byteAt (buf : List Byte) (k : Nat) : Byte := buf.getD k 0x00#8

/-- `n` bytes from index `k`: "`dt = MemRead(1, DT_BYTES)`" (R123). -/
def bytesAt (buf : List Byte) (k n : Nat) : List Byte := (List.range n).map fun j => byteAt buf (k + j)

/-- The message a valid ordinal selects, "by its first byte alone" (R143), with its operands by index (R123). -/
def messageOf (dtBytes : Nat) (buf : List Byte) : Option Instr :=
  match (byteAt buf 0).toNat with
  | 0x00 => some .nop
  | 0x01 => some .reset
  | 0x02 => some .info
  | 0x03 => some .recStart
  | 0x04 => some .recStop
  | 0x05 => some (.setBrightness (byteAt buf 1))
  | 0x06 => some (.setClock (bytesAt buf 1 dtBytes))
  | 0x07 => some (.setAlarm (bytesAt buf 1 dtBytes))
  | 0x08 => some (.haptic (byteAt buf 1) (byteAt buf 2))
  | 0x09 => some .hapticAck
  | 0x0A => some .hapticFail
  | 0x0B => some .powerDown
  | _ => none

/-- Decode of a pending command from the inbound buffer's bytes and `rx_len` (R170, R171). More bytes than the size are
accepted and ignored (R124). -/
def decodeBuffer (dtBytes : Nat) (buf : List Byte) (len : Nat) : Except DecodeError Instr :=
  match validate dtBytes (byteAt buf 0) len with
  | .error e => .error e
  | .ok () =>
    match messageOf dtBytes buf with
    | some i => .ok i
    | none => .error .unknownOrdinal

/-- Decode of a message `m[0..L-1]`, the data bytes of one write transaction (R120). -/
def decodeMessage (dtBytes : Nat) (m : List Byte) : Except DecodeError Instr := decodeBuffer dtBytes m m.length

/-- The priority decode of the condition vector, dts first, then drx, sor, sow, eot (R130, R330). -/
def decodeBus (cond : BitVec 5) (rx : Byte) : Instr :=
  if cond.getLsbD 4 then .dts
  else if cond.getLsbD 3 then .drx rx
  else if cond.getLsbD 2 then .sor
  else if cond.getLsbD 1 then .sow
  else if cond.getLsbD 0 then .eot
  else .other

/-- What carries an instruction to the block: the bytes of one write transaction (R120), or one strobe of the bus
peripheral with its condition vector and byte (R60). -/
inductive Carrier where
  | message (bytes : List Byte)
  | condition (cond : BitVec 5) (rx : Byte)
  deriving DecidableEq, Repr

/-- The decoder on either carrier. -/
def decode (dtBytes : Nat) : Carrier → Except DecodeError Instr
  | .message m => decodeMessage dtBytes m
  | .condition cond rx => .ok (decodeBus cond rx)

/-- The encoder, from the same tables (R121, R130, R142): a condition is written as its `match`, and `bus_rx` as 0x00
where it carries nothing. -/
def encode : Instr → Carrier
  | .nop => .message [0x00#8]
  | .reset => .message [0x01#8]
  | .info => .message [0x02#8]
  | .recStart => .message [0x03#8]
  | .recStop => .message [0x04#8]
  | .setBrightness v => .message [0x05#8, v]
  | .setClock dt => .message (0x06#8 :: dt)
  | .setAlarm dt => .message (0x07#8 :: dt)
  | .haptic i d => .message [0x08#8, i, d]
  | .hapticAck => .message [0x09#8]
  | .hapticFail => .message [0x0A#8]
  | .powerDown => .message [0x0B#8]
  | .dts => .condition 0b10000#5 0x00#8
  | .drx b => .condition 0b01000#5 b
  | .sor => .condition 0b00100#5 0x00#8
  | .sow => .condition 0b00010#5 0x00#8
  | .eot => .condition 0b00001#5 0x00#8
  | .other => .condition 0b00000#5 0x00#8

/-- Bytes of a number, the least significant first. -/
def bytesOfNat (n w : Nat) : List Byte := (List.range n).map fun k => BitVec.ofNat 8 (w >>> (8 * k))

/-- How an opcode-table word is read (log 8). The table's two formats share their words and its words do not name the
format, so a word of fewer than 8 bits is a condition vector, and a word of whole bytes is a message where its first
byte is an ordinal of the catalog, else a condition vector where it fits in 5 bits. -/
def tableCarrier (cap nbits w : Nat) : Option Carrier :=
  if nbits < 8 then if w < 32 then some (.condition (BitVec.ofNat 5 w) 0x00#8) else none
  else if (w % 256) < nOrd then some (.message (bytesOfNat cap w))
  else if w < 32 then some (.condition (BitVec.ofNat 5 w) 0x00#8)
  else none

/-- The instruction the decoder reads from an opcode-table word under the example parameters: a message's bytes stand
in a buffer of `CAP` bytes, the first byte in bits 7..0. -/
def decodeTableWord (nbits w : Nat) : Option Instr :=
  match tableCarrier Params.specExample.cap nbits w with
  | none => none
  | some c =>
    match decode Params.specExample.dtBytes c with
    | .ok i => some i
    | .error _ => none

end Sys2Proof
end

