-- ==== Sys2Proof/Machine/State.lean ====
section
/-! DEFINITION. The state of the block: every register of R49, the parameters of R8, and the model's own three fields (the
outputs of the latest step, the queue of inputs, the counter of free inputs); the reasons a step can stop; reset. -/

namespace Sys2Proof.Machine

/-- The inbound space `IB[0..CAP-1]` (R82) as (address, byte) pairs in one canonical form: addresses strictly rising, no
entry equal to 0x00, which every unlisted address reads as, its reset content (R29). -/
abbrev Memory := List Host.Cell

/-- `bus_state` (R32). Code 3 is never written and is not in the type (U2, log 11). -/
inductive BusState where
  /-- code 0 -/
  | idle
  /-- code 1, "host is reading" -/
  | sendingState
  /-- code 2, "host is writing" -/
  | receivingCommand
  deriving DecidableEq, Repr

/-- `ml_phase` (R42): the phase the next `Main` step executes. -/
inductive Phase where
  /-- code 0 -/
  | buttons
  /-- code 1 -/
  | analog
  /-- code 2 -/
  | supervisor
  /-- code 3 -/
  | command
  deriving DecidableEq, Repr

/-- `mux_sel` (R40): the channel the next conversion samples. -/
inductive Channel where
  /-- code 0 -/
  | joyX
  /-- code 1 -/
  | joyY
  /-- code 2 -/
  | vbatt
  /-- code 3 -/
  | temp
  deriving DecidableEq, Repr

/-- The response of a `Bus` step (R131); `bus_tx` is there with `DATA` only (R61, U4). -/
inductive Response where
  /-- code 0 -/
  | ack
  /-- code 1 -/
  | nack
  /-- code 2, with the byte on `bus_tx` -/
  | data (b : Byte)
  /-- code 3 -/
  | complete
  deriving DecidableEq, Repr

/-- What the ports showed in the latest step: `bus_resp` with `bus_tx` (R61), the events `haptic_req` and `notify_out`
(R65). The model's own field (log 4). -/
structure Outputs where
  /-- the response, in a `Bus` step -/
  resp : Option Response
  /-- `haptic_req(intensity, duration)`, when a haptic pulse is started -/
  hapticReq : Option (Byte × Byte)
  /-- `notify_out(ordinal)`, when a notification is issued -/
  notify : Option Byte
  deriving DecidableEq, Repr

/-- No port driven. -/
def Outputs.quiet : Outputs := ⟨none, none, none⟩

/-- The state of the block, `10_state.md`. -/
structure State where
  /-- the parameters of R8; no step changes them (log 1) -/
  params : Params
  /-- `SR[0]`: mode [2:0], rec 3, usb 4, chg 5, lowbatt 6, alarm 7 (R21) -/
  status : Byte
  /-- `SR[1]`: the debounced buttons (R22) -/
  buttons : Byte
  /-- `SR[2]` (R23) -/
  joyX : Byte
  /-- `SR[3]` (R23) -/
  joyY : Byte
  /-- `SR[4]` (R24) -/
  vbatt : Byte
  /-- `SR[5]` (R25) -/
  temp : Byte
  /-- `SR[6..5+DT_BYTES]`, in index order (R26) -/
  time : List Byte
  /-- `IB[0..CAP-1]` (R29) -/
  ib : Memory
  /-- `rx_len` (R30) -/
  rxLen : Nat
  /-- `cmd_pending` (R31) -/
  cmdPending : Bool
  /-- `bus_state` (R32) -/
  busState : BusState
  /-- `tx_cur` (R33) -/
  txCur : Nat
  /-- `irq`, the signal line (R34) -/
  irq : Bool
  /-- `btn_timer[0..N_BTN-1]` (R36) -/
  btnTimer : List Byte
  /-- `pwr_prev` (R37) -/
  pwrPrev : Bool
  /-- `pwr_track` (R37) -/
  pwrTrack : Bool
  /-- `confirmed` (R37) -/
  confirmed : Bool
  /-- `hold_cnt` (R38) -/
  holdCnt : Half
  /-- `wake_to` (R39) -/
  wakeTo : Half
  /-- `mux_sel` (R40) -/
  muxSel : Channel
  /-- `mux_div` (R40) -/
  muxDiv : Half
  /-- `sample_due` (R40) -/
  sampleDue : Bool
  /-- `rail_en` (R41) -/
  railEn : Bool
  /-- `sampling_en` (R41) -/
  samplingEn : Bool
  /-- `ml_phase` (R42) -/
  mlPhase : Phase
  /-- `brightness` (R43) -/
  brightness : Byte
  /-- `alarm_dt[0..DT_BYTES-1]` (R44) -/
  alarmDt : List Byte
  /-- `haptic_active` (R45) -/
  hapticActive : Bool
  /-- `bus_err_cnt` (R46) -/
  busErrCnt : Byte
  /-- `bus_err_last` (R46) -/
  busErrLast : Byte
  /-- `msg_drop_cnt` (R47) -/
  msgDropCnt : Byte
  /-- `msg_err_last` (R47) -/
  msgErrLast : Byte
  /-- the model's own: the outputs of the latest step (log 4) -/
  out : Outputs
  /-- the model's own: the inputs that have arrived and are not served yet, the next first (log 2) -/
  events : List Event
  /-- the model's own: how many free inputs have been used (log 3) -/
  freeCtr : Nat
  deriving DecidableEq, Repr

/-- The one reason a step can stop with a fault. -/
inductive Fault where
  /-- Raised by `memRead` and `memWrite` for an access of `n` bytes at `addr` with `addr + n > CAP`: "defined only for
  `addr + n ≤ CAP`" (R11), "`IB[CAP]` does not exist" (R206). Safe: it stops, and no state that meets the invariant of
  R48 raises it (R83). -/
  | inboundOutOfRange (addr n : Nat)
  deriving DecidableEq, Repr

/-- The one reason a step can be refused. -/
inductive Refusal where
  /-- Raised by an arm of `exec` whose instruction has no meaning yet; no arm uses it. Safe: it stops. -/
  | notModelled (mnemonic : String)
  deriving DecidableEq, Repr

/-- What a step answers. -/
abbrev Result := Host.Outcome State Fault Refusal

/-- Every register at the reset value of R49 (R360), under the parameters `p`; no input has arrived. -/
def State.resetFor (p : Params) : State where
  params := p
  status := 0x00
  buttons := 0x00
  joyX := 0x00
  joyY := 0x00
  vbatt := 0x00
  temp := 0x00
  time := List.replicate p.dtBytes 0x00
  ib := []
  rxLen := 0
  cmdPending := false
  busState := .idle
  txCur := 0
  irq := false
  btnTimer := List.replicate p.nBtn 0x00
  pwrPrev := false
  pwrTrack := false
  confirmed := false
  holdCnt := 0
  wakeTo := 0
  muxSel := .joyX
  muxDiv := 0
  sampleDue := false
  railEn := false
  samplingEn := false
  mlPhase := .buttons
  brightness := 0x00
  alarmDt := List.replicate p.dtBytes 0x00
  hapticActive := false
  busErrCnt := 0x00
  busErrLast := 0x00
  msgDropCnt := 0x00
  msgErrLast := 0x00
  out := .quiet
  events := []
  freeCtr := 0

/-- The machine right after reset: R49, with the parameters of the spec's examples (log 1), the queue of inputs empty
(log 2). -/
def State.reset : State := State.resetFor Params.specExample

end Sys2Proof.Machine
end

