-- ==== Sys2Proof/Machine/Flags.lean ====
section
/-! DEFINITION. The status byte (R21, R111, R112), the bits of a byte (R10), and the integer arithmetic of the block
(R11, R159). -/

namespace Sys2Proof.Machine

/-- `sat_inc_N(v)`: `v + 1` below the greatest value, else `v` (R11). -/
def satInc {n : Nat} (v : BitVec n) : BitVec n := if v.toNat < 2 ^ n - 1 then v + 1#n else v

/-- `dec0(v)`: `v - 1` above 0, else 0 (R11). -/
def dec0 {n : Nat} (v : BitVec n) : BitVec n := if v = 0#n then 0#n else v - 1#n

/-- `clamp(v, lo, hi)` (R11). -/
def clamp (v lo hi : Int) : Int := if v < lo then lo else if hi < v then hi else v

/-- `v[i] <- b` on a byte (R10). -/
def setBit (v : Byte) (i : Nat) (b : Bool) : Byte :=
  if b then v ||| BitVec.twoPow 8 i else v &&& ~~~ BitVec.twoPow 8 i

/-- The power mode, "one of a closed enumeration" (R28). -/
inductive Mode where
  | sleep
  | wakeUp
  | powerUp
  | on
  | powerDown
  deriving DecidableEq, Repr

/-- The 3-bit code of a mode (R112). -/
def Mode.code : Mode → BitVec 3
  | .sleep => 0
  | .wakeUp => 1
  | .powerUp => 2
  | .on => 3
  | .powerDown => 4

/-- The mode of a code; none for the reserved codes 5, 6, 7 (R112). -/
def Mode.ofCode (c : BitVec 3) : Option Mode :=
  if c = 0 then some .sleep
  else if c = 1 then some .wakeUp
  else if c = 2 then some .powerUp
  else if c = 3 then some .on
  else if c = 4 then some .powerDown
  else none

/-- The five status flags (R21). -/
inductive Flag where
  | recording
  | usb
  | charging
  | lowBattery
  | alarm
  deriving DecidableEq, Repr

/-- The bit position of a flag in the status byte (R111). -/
def Flag.bit : Flag → Nat
  | .recording => 3
  | .usb => 4
  | .charging => 5
  | .lowBattery => 6
  | .alarm => 7

/-- The flag an environment step names (R262). -/
def flagOfEnv : EnvFlag → Flag
  | .usb => .usb
  | .charging => .charging
  | .lowBattery => .lowBattery
  | .alarm => .alarm

/-- `status[2:0]`. -/
def modeField (status : Byte) : BitVec 3 := status.extractLsb' 0 3

/-- `status[2:0] <- m`; the flags keep their bits. -/
def withModeField (status : Byte) (m : Mode) : Byte := (status &&& 0xF8#8) ||| (m.code.setWidth 8)

/-- `status[f]`. -/
def flagOf (f : Flag) (status : Byte) : Bool := status.getLsbD (Flag.bit f)

/-- The mode a state is in; none for a reserved code. -/
def State.mode (s : State) : Option Mode := Mode.ofCode (modeField s.status)

/-- The debounced level of the power button, `SR.buttons[PWR_BTN]` (R245, R283). -/
def State.powerButton (s : State) : Bool := s.buttons.getLsbD s.params.pwrBtn

/-- The 2-bit code of `bus_state` (R32). -/
def BusState.code : BusState → BitVec 2
  | .idle => 0
  | .sendingState => 1
  | .receivingCommand => 2

/-- The 2-bit code of `ml_phase` (R42). -/
def Phase.code : Phase → BitVec 2
  | .buttons => 0
  | .analog => 1
  | .supervisor => 2
  | .command => 3

/-- `(ml_phase + 1) mod 4` (R240). -/
def Phase.next : Phase → Phase
  | .buttons => .analog
  | .analog => .supervisor
  | .supervisor => .command
  | .command => .buttons

/-- The 2-bit code of `mux_sel` (R40). -/
def Channel.code : Channel → BitVec 2
  | .joyX => 0
  | .joyY => 1
  | .vbatt => 2
  | .temp => 3

/-- `(mux_sel + 1) mod 4` (R297). -/
def Channel.next : Channel → Channel
  | .joyX => .joyY
  | .joyY => .vbatt
  | .vbatt => .temp
  | .temp => .joyX

/-- The code on `bus_resp` (R131). -/
def Response.code : Response → BitVec 2
  | .ack => 0
  | .nack => 1
  | .data _ => 2
  | .complete => 3

end Sys2Proof.Machine
end

