-- ==== Sys2Proof/Machine/Codec.lean ====
section
/-! DEFINITION. The State Record Codec of `40_codec.md`: "both total functions, saturating at range edges". The block only
encodes; the decode functions are the host's half of the same contract. -/

namespace Sys2Proof.Machine

/-- `enc_v(v) = clamp(v - V_OFF, 0, 255)`, hundredths of a volt (R150). -/
def encV (p : Params) (v : Int) : Byte := BitVec.ofInt 8 (clamp (v - p.vOff) 0 255)

/-- `dec_v(b) = (b == 0, V_OFF + b)`: whether below the floor, and hundredths of a volt (R151). -/
def decV (p : Params) (b : Byte) : Bool × Int := (b == 0#8, (p.vOff : Int) + b.toNat)

/-- `V_FLOOR = V_OFF + 1` (R152). -/
def vFloor (p : Params) : Int := p.vOff + 1

/-- `V_CEIL = V_OFF + 255` (R152). -/
def vCeil (p : Params) : Int := p.vOff + 255

/-- `enc_t(h) = clamp(h + T_OFF, 0, 255)`, half degrees Celsius (R154). -/
def encT (h : Int) : Byte := BitVec.ofInt 8 (clamp (h + tOff) 0 255)

/-- `dec_t(b) = b - T_OFF` (R155). -/
def decT (b : Byte) : Int := (b.toNat : Int) - tOff

/-- `enc_j(adc_in) = adc_in[7:0]` (R157). -/
def encJ (r : Half) : Byte := r.extractLsb' 0 8

/-- `dec_j(b) = b` (R157). -/
def decJ (b : Byte) : Byte := b

/-- The decoded status byte. -/
structure StatusFields where
  mode : Mode
  recording : Bool
  usb : Bool
  charging : Bool
  lowBattery : Bool
  alarm : Bool
  deriving DecidableEq, Repr

/-- `pack_status`: {alarm, lowbatt, chg, usb, rec, mode[2:0]} (R158). -/
def packStatus (f : StatusFields) : Byte :=
  BitVec.ofBool f.alarm ++ BitVec.ofBool f.lowBattery ++ BitVec.ofBool f.charging ++ BitVec.ofBool f.usb ++
    BitVec.ofBool f.recording ++ f.mode.code

/-- The inverse bit selection (R158); a reserved mode code is refused: "a host that reads one must treat the record as
invalid" (R112). -/
def unpackStatus (b : Byte) : Option StatusFields :=
  match Mode.ofCode (modeField b) with
  | none => none
  | some m => some ⟨m, flagOf .recording b, flagOf .usb b, flagOf .charging b, flagOf .lowBattery b, flagOf .alarm b⟩

end Sys2Proof.Machine
end

