-- ==== Sys2Proof/Machine/Memory.lean ====
section
/-! DEFINITION. The inbound space as a canonical list of cells: reading a byte, writing a byte, the canonical form. -/

namespace Sys2Proof.Machine

/-- What an unlisted inbound address reads as: the reset content of `IB` (R29, R360). -/
def unlistedByte : Byte := 0x00

/-- The byte at an address. -/
def Memory.read : Memory → Nat → Byte
  | [], _ => unlistedByte
  | (k, v) :: rest, a => if a = k then v else Memory.read rest a

/-- The cell to list for a value: none for what an unlisted address reads as. -/
def cellOf (a : Nat) (v : Byte) : Memory := if v = unlistedByte then [] else [(a, v)]

/-- Write of one byte; the canonical form is kept. -/
def Memory.write : Memory → Nat → Byte → Memory
  | [], a, v => cellOf a v
  | (k, w) :: rest, a, v =>
    if a < k then cellOf a v ++ (k, w) :: rest
    else if a = k then cellOf a v ++ rest
    else (k, w) :: Memory.write rest a v

/-- The canonical form: addresses strictly rising, none listed with the unlisted value. -/
def Memory.wf : Memory → Bool
  | [] => true
  | (k, v) :: rest => (v != unlistedByte) && rest.all (fun c => decide (k < c.1)) && Memory.wf rest

/-- Every listed address lies below `n`. -/
def Memory.below (n : Nat) (m : Memory) : Bool := m.all fun c => decide (c.1 < n)

/-- `n` bytes from an address, in index order. -/
def Memory.readN (m : Memory) (addr n : Nat) : List Byte := (List.range n).map fun k => Memory.read m (addr + k)

/-- Write of a list of bytes from an address, in index order. -/
def Memory.writeN (m : Memory) (addr : Nat) : List Byte → Memory
  | [] => m
  | b :: bs => Memory.writeN (Memory.write m addr b) (addr + 1) bs

end Sys2Proof.Machine
end

