-- ==== Sys2Proof/Machine/Operands.lean ====
section
/-! DEFINITION. Where operands come from and go to: the Outbound Record by index (R20, R110), the inbound buffer by index
(R11, R83), date-time strings (R84), the encoder and the record byte of each analog channel (R296). -/

namespace Sys2Proof.Machine

/-- `SR[k]` (R90, R110). -/
def State.recordByte (s : State) (k : Nat) : Byte :=
  match k with
  | 0 => s.status
  | 1 => s.buttons
  | 2 => s.joyX
  | 3 => s.joyY
  | 4 => s.vbatt
  | 5 => s.temp
  | j + 6 => s.time.getD j 0x00#8

/-- The whole Outbound Record, `SR[0..SR_BYTES-1]`. -/
def State.record (s : State) : List Byte := (List.range s.params.srBytes).map s.recordByte

/-- `MemRead(addr, n)`: "defined only for `addr + n ≤ CAP`" (R11). -/
def memRead (s : State) (addr n : Nat) : Except Fault (List Byte) :=
  if addr + n ≤ s.params.cap then .ok (Memory.readN s.ib addr n) else .error (.inboundOutOfRange addr n)

/-- `MemWrite(addr, n, v)` with `n` the length of `v`: "defined only for `addr + n ≤ CAP`" (R11). -/
def memWrite (s : State) (addr : Nat) (v : List Byte) : Except Fault State :=
  if addr + v.length ≤ s.params.cap then .ok { s with ib := Memory.writeN s.ib addr v }
  else .error (.inboundOutOfRange addr v.length)

/-- A date-time string as the `DT_BYTES` registers take it: byte `k` of the string into register `k`. A string of another
length cannot arrive (log 9). -/
def fitBytes (n : Nat) (v : List Byte) : List Byte := (List.range n).map fun k => v.getD k 0x00#8

/-- The record byte of a channel (R296). -/
def channelByte (c : Channel) (s : State) : Byte :=
  match c with
  | .joyX => s.joyX
  | .joyY => s.joyY
  | .vbatt => s.vbatt
  | .temp => s.temp

/-- Write of a channel's record byte (R296). -/
def setChannelByte (c : Channel) (b : Byte) (s : State) : State :=
  match c with
  | .joyX => { s with joyX := b }
  | .joyY => { s with joyY := b }
  | .vbatt => { s with vbatt := b }
  | .temp => { s with temp := b }

/-- `adc_in` as the channel reads and encodes it: raw low byte, unsigned, or two's complement (R296, R297). -/
def encodeSample (p : Params) (c : Channel) (adcIn : Half) : Byte :=
  match c with
  | .joyX => encJ adcIn
  | .joyY => encJ adcIn
  | .vbatt => encV p adcIn.toNat
  | .temp => encT adcIn.toInt

end Sys2Proof.Machine
end

