-- ==== Sys2Proof/Machine/Ops.lean ====
section
/-! DEFINITION. The named operations every meaning is built from: the signal line and the setters (R27, R243, R325),
`raise` with the recoveries (R210, R213, R312), the outputs (R61, R65), the mode entries (R244 to R255, R265), the
contact (R252), `Reset()` (R360) and the end of a command service (R170).

Taking an exception: the block has no trap; its one error action is `raise`. "Nothing is saved: there is no handler, no
vector, no stack and no mode switch" (R335), and "there is nothing to return from" (R336). -/

namespace Sys2Proof.Machine

/-- `arm()`: `irq <- 1` (R325). -/
def arm (s : State) : State := { s with irq := true }

/-- `SetFlag(f, b)`: the state, and whether the value changed (R27). -/
def setFlag (f : Flag) (b : Bool) (s : State) : State × Bool :=
  if flagOf f s.status = b then (s, false) else (arm { s with status := setBit s.status (Flag.bit f) b }, true)

/-- `SetMode(m)`: the state, and whether the value changed (R243). -/
def setMode (m : Mode) (s : State) : State × Bool :=
  if modeField s.status = m.code then (s, false)
  else ({ arm { s with status := withModeField s.status m } with pwrTrack := false, holdCnt := 0 }, true)

/-- The errors of R310. -/
inductive Cause where
  | unrecognisedCondition
  | unexpectedDataToSend
  | strayData
  | unknownOrdinal
  | truncatedPayload
  | wrongDirection
  deriving DecidableEq, Repr

/-- The cause code (R310). -/
def Cause.code : Cause → Byte
  | .unrecognisedCondition => 1
  | .unexpectedDataToSend => 2
  | .strayData => 3
  | .unknownOrdinal => 4
  | .truncatedPayload => 5
  | .wrongDirection => 6

/-- Whether the class is transport, codes 1 to 3, or protocol, codes 4 to 6 (R310). -/
def Cause.isTransport (c : Cause) : Bool := decide ((Cause.code c).toNat ≤ 3)

/-- `raise E(info)`, the one error action (R312); `info` is stored in no register. -/
def raise (c : Cause) (s : State) : State :=
  if Cause.isTransport c then { s with busErrCnt := satInc s.busErrCnt, busErrLast := Cause.code c }
  else { s with msgDropCnt := satInc s.msgDropCnt, msgErrLast := Cause.code c }

/-- `Abort()`, the recovery of every transport-level error (R213). -/
def abort (s : State) : State :=
  { s with rxLen := if s.busState = .receivingCommand then 0 else s.rxLen, busState := .idle }

/-- `EndWrite()`; the caller writes `bus_state` (R210). -/
def endWrite (s : State) : State := if 1 ≤ s.rxLen then { s with cmdPending := true } else s

/-- A start or an end inside a write first ends the write (R202, R204, R208). -/
def endWriteIfReceiving (s : State) : State := if s.busState = .receivingCommand then endWrite s else s

/-- `respond(r)` (R131). -/
def respond (r : Response) (s : State) : State := { s with out := { s.out with resp := some r } }

/-- Start of a haptic pulse: the event `haptic_req` and `haptic_active <- 1` (R181, R265). -/
def startHaptic (intensity duration : Byte) (s : State) : State :=
  { s with out := { s.out with hapticReq := some (intensity, duration) }, hapticActive := true }

/-- `emit notify_out(ordinal)` (R185). -/
def notify (ordinal : Byte) (s : State) : State := { s with out := { s.out with notify := some ordinal } }

/-- `SR.time[k] <- v[k]` for every `k` (R179, R263). -/
def writeTime (v : List Byte) (s : State) : State := { s with time := fitBytes s.params.dtBytes v }

/-- `alarm_dt[k] <- v[k]` for every `k` (R180). -/
def writeAlarm (v : List Byte) (s : State) : State := { s with alarmDt := fitBytes s.params.dtBytes v }

/-- `EnterSleep()` (R244). -/
def enterSleep (s : State) : State :=
  { (setMode .sleep s).1 with
    railEn := false, samplingEn := false, sampleDue := false, muxDiv := 0, confirmed := false, wakeTo := 0 }

/-- `EnterWakeUp()` (R246). -/
def enterWakeUp (s : State) : State :=
  { (setMode .wakeUp s).1 with
    railEn := true, samplingEn := true, muxDiv := 0, wakeTo := BitVec.ofNat 16 s.params.wakeTimeoutTicks,
    confirmed := false, pwrTrack := true, holdCnt := 0 }

/-- `EnterOn()` (R251). -/
def enterOn (s : State) : State := { (setMode .on s).1 with confirmed := false, wakeTo := 0 }

/-- `EnterPowerDown()` (R255). -/
def enterPowerDown (s : State) : State := (setMode .powerDown s).1

/-- `WakeHaptic()` (R265). -/
def wakeHaptic (s : State) : State :=
  match s.params.wakeHaptic with
  | none => s
  | some (i, d) => startHaptic i d s

/-- Mode `WakeUp`, or `PowerUp`, which is "treated exactly as `WakeUp`" (R258). -/
def State.isWaking (s : State) : Bool := s.mode = some .wakeUp || s.mode = some .powerUp

/-- `Contact()` (R252). -/
def contact (s : State) : State := if s.isWaking then enterOn s else s

/-- `Reset()`: every register takes its reset value (R360). The parameters are no registers; the inputs that have arrived
belong to the environment and stay (log 2). -/
def resetBlock (s : State) : State := { State.resetFor s.params with events := s.events, freeCtr := s.freeCtr }

/-- The end of every command service: `cmd_pending <- 0`, `ml_phase <- 0` (R170). -/
def finishCommand (s : State) : State := { s with cmdPending := false, mlPhase := .buttons }

end Sys2Proof.Machine
end

