-- ==== Sys2Proof/Machine/Bus.lean ====
section
/-! DEFINITION. The meanings of the six raw bus conditions, `42_bus_fsm.md`. Together they are the transition table of
R201; none reads the power mode (R214). -/

namespace Sys2Proof.Machine

/-- `SOR` (R202): never refused; clears the signal line always. -/
def execSor (s : State) : Result :=
  .next (respond .ack { endWriteIfReceiving s with irq := false, txCur := 0, busState := .sendingState })

/-- `DTS` in `SendingState`: the live byte, read now, or `COMPLETE` past the end (R203). -/
def sendNextByte (s : State) : State :=
  if s.txCur < s.params.srBytes then respond (.data (s.recordByte s.txCur)) { s with txCur := s.txCur + 1 }
  else respond .complete { s with busState := .idle }

/-- `DTS` (R203, R209). -/
def execDts (s : State) : Result :=
  if s.busState = .sendingState then .next (sendNextByte s)
  else .next (respond .complete (abort (raise .unexpectedDataToSend s)))

/-- `SOW` (R204): the single backpressure mechanism. -/
def execSow (s : State) : Result :=
  let u := endWriteIfReceiving s
  if u.cmdPending then .next (respond .nack { u with busState := .idle })
  else .next (respond .ack { u with rxLen := 0, busState := .receivingCommand })

/-- The end of a stored byte: `rx_len` counts it; the byte that fills the buffer completes the write at once (R206). -/
def byteStored (s : State) : State :=
  let u := { s with rxLen := s.rxLen + 1 }
  if u.rxLen < u.params.cap then respond .ack u
  else respond .complete { u with cmdPending := true, busState := .idle }

/-- `DRX b` (R206, R207). -/
def execDrx (b : Byte) (s : State) : Result :=
  if s.busState = .receivingCommand then
    match memWrite s s.rxLen [b] with
    | .error f => .fault f
    | .ok u => .next (byteStored u)
  else .next (respond .nack (abort (raise .strayData s)))

/-- `EOT` (R208). -/
def execEot (s : State) : Result := .next (respond .ack { endWriteIfReceiving s with busState := .idle })

/-- `OTHER` (R212). -/
def execOther (s : State) : Result := .next (respond .complete (abort (raise .unrecognisedCondition s)))

end Sys2Proof.Machine
end

