-- ==== Sys2Proof/Machine/Messages.lean ====
section
/-! DEFINITION. The meanings of the twelve messages, `41_messages.md`: what the command service does with a pending command
that decodes to the message, from `Contact()` to the clearing of `cmd_pending` (R170, R172). -/

namespace Sys2Proof.Machine

/-- A valid message other than `NOP`: `Contact()` first, then the message's own effect in the mode that left, then the end
of the service (R170, R172). -/
def serve (effect : State → State) (s : State) : Result := .next (finishCommand (effect (contact s)))

/-- A message dropped as `WrongDirection`: no contact, no effect but the count (R182, R316). -/
def dropWrongDirection (s : State) : Result := .next (finishCommand (raise .wrongDirection s))

/-- `NOP` (R173): no effect, not a contact. -/
def execNop (s : State) : Result := .next (finishCommand s)

/-- `RESET` (R174). -/
def execReset (s : State) : Result := serve resetBlock s

/-- `INFO` (R175): no effect of its own. -/
def execInfo (s : State) : Result := serve id s

/-- `REC_START` (R176). -/
def execRecStart (s : State) : Result := serve (fun u => (setFlag .recording true u).1) s

/-- `REC_STOP` (R177). -/
def execRecStop (s : State) : Result := serve (fun u => (setFlag .recording false u).1) s

/-- `SET_BRIGHTNESS v` (R178). -/
def execSetBrightness (v : Byte) (s : State) : Result := serve (fun u => { u with brightness := v }) s

/-- `SET_CLOCK d` (R179): the signal line is not armed. -/
def execSetClock (dt : List Byte) (s : State) : Result := serve (writeTime dt) s

/-- `SET_ALARM d` (R180): the alarm flag is not touched. -/
def execSetAlarm (dt : List Byte) (s : State) : Result := serve (writeAlarm dt) s

/-- `HAPTIC i d` (R181): a new request replaces a running one. -/
def execHaptic (intensity duration : Byte) (s : State) : Result := serve (startHaptic intensity duration) s

/-- `HAPTIC_ACK` received from the host (R182). -/
def execHapticAck (s : State) : Result := dropWrongDirection s

/-- `HAPTIC_FAIL` received from the host (R183). -/
def execHapticFail (s : State) : Result := dropWrongDirection s

/-- `POWER_DOWN` (R184): acts in `On` only. -/
def execPowerDown (s : State) : Result := serve (fun u => if u.mode = some .on then enterPowerDown u else u) s

end Sys2Proof.Machine
end

