-- ==== Sys2Proof/Machine/Dispatch.lean ====
section
/-! DEFINITION. One arm per instruction: the meaning of each row of the opcode table. -/

namespace Sys2Proof.Machine

def exec (i : Instr) (s : State) : Host.Outcome State Fault Refusal :=
  match i with
  | .nop => Sys2Proof.Machine.execNop s
  | .reset => Sys2Proof.Machine.execReset s
  | .info => Sys2Proof.Machine.execInfo s
  | .recStart => Sys2Proof.Machine.execRecStart s
  | .recStop => Sys2Proof.Machine.execRecStop s
  | .setBrightness v => Sys2Proof.Machine.execSetBrightness v s
  | .setClock dt => Sys2Proof.Machine.execSetClock dt s
  | .setAlarm dt => Sys2Proof.Machine.execSetAlarm dt s
  | .haptic intensity duration => Sys2Proof.Machine.execHaptic intensity duration s
  | .hapticAck => Sys2Proof.Machine.execHapticAck s
  | .hapticFail => Sys2Proof.Machine.execHapticFail s
  | .powerDown => Sys2Proof.Machine.execPowerDown s
  | .dts => Sys2Proof.Machine.execDts s
  | .drx byte => Sys2Proof.Machine.execDrx byte s
  | .sor => Sys2Proof.Machine.execSor s
  | .sow => Sys2Proof.Machine.execSow s
  | .eot => Sys2Proof.Machine.execEot s
  | .other => Sys2Proof.Machine.execOther s

end Sys2Proof.Machine
end

