-- ==== Sys2Proof/Machine/Sampler.lean ====
section
/-! DEFINITION. The debounced button sampler and the tick (`44_buttons.md`) and the analog multiplexer (`45_analog.md`). -/

namespace Sys2Proof.Machine

/-- What the sampler leaves: the timers, the buttons byte, whether any change was accepted. -/
structure SampleResult where
  timers : List Byte
  buttons : Byte
  any : Bool
  deriving DecidableEq, Repr

/-- The loop of `ButtonSample` from button `i` on: an unlocked button whose raw level differs is accepted and locked
(R281). -/
def sampleFrom (reload raw : Byte) : Nat → List Byte → Byte → SampleResult
  | _, [], btns => ⟨[], btns, false⟩
  | i, t :: ts, btns =>
    let accept := (t == 0#8) && (raw.getLsbD i != btns.getLsbD i)
    let rest := sampleFrom reload raw (i + 1) ts (if accept then setBit btns i (raw.getLsbD i) else btns)
    ⟨(if accept then reload else t) :: rest.timers, rest.buttons, accept || rest.any⟩

/-- `ButtonSample(btn_raw)` (R281). The list `btn_timer` has one entry per button, so bits from `N_BTN` on are neither
read nor written. -/
def buttonSample (btnRaw : Byte) (s : State) : State :=
  let r := sampleFrom (BitVec.ofNat 8 s.params.debounceTicks) btnRaw 0 s.btnTimer s.buttons
  let u := { s with btnTimer := r.timers, buttons := r.buttons }
  if r.any then arm u else u

/-- The hold counter's part of `Tick` (R285). -/
def tickHold (s : State) : State :=
  if s.pwrTrack && s.powerButton then { s with holdCnt := satInc s.holdCnt } else s

/-- The wake timeout's part of `Tick` (R285). -/
def tickWake (s : State) : State := if s.isWaking then { s with wakeTo := dec0 s.wakeTo } else s

/-- The multiplexer's part of `Tick` (R285). -/
def tickMux (s : State) : State :=
  if s.samplingEn then
    if s.muxDiv = 0 then
      { s with sampleDue := true, muxDiv := BitVec.ofNat 16 (s.params.analogPeriodTicks - 1) }
    else { s with muxDiv := s.muxDiv - 1 }
  else s

/-- `Tick()` (R285). -/
def tick (s : State) : State := tickMux (tickWake (tickHold { s with btnTimer := s.btnTimer.map dec0 }))

/-- The sample just taken goes into the channel's record byte; the signal line is armed if and only if the byte changed
(R297). -/
def storeSample (c : Channel) (b : Byte) (s : State) : State :=
  if channelByte c s = b then s else arm (setChannelByte c b s)

/-- `AnalogSample(adc_in)` (R297). -/
def analogSample (adcIn : Half) (s : State) : State :=
  if s.samplingEn && s.sampleDue then
    { storeSample s.muxSel (encodeSample s.params s.muxSel adcIn) s with
      muxSel := Channel.next s.muxSel, sampleDue := false }
  else s

end Sys2Proof.Machine
end

