-- ==== Sys2Proof/Machine/Supervisor.lean ====
section
/-! DEFINITION. The Power/Input Supervisor's step and the steps of the environment agent, `43_supervisor.md`. -/

namespace Sys2Proof.Machine

/-- In `Sleep`: a press edge wakes the block (R246). -/
def superviseSleep (press : Bool) (s : State) : State := if press then enterWakeUp s else s

/-- In `WakeUp`, not confirmed: first the confirmation, then the release (R247, R248, R250). -/
def superviseUnconfirmed (p : Bool) (s : State) : State :=
  if s.params.wakeHoldTicks ≤ s.holdCnt.toNat then wakeHaptic { s with confirmed := true }
  else if p then s else enterSleep s

/-- In `WakeUp` and `PowerUp`: the confirmation test, then the timeout (R249, R250). -/
def superviseWaking (p : Bool) (s : State) : State :=
  let u := if s.confirmed then s else superviseUnconfirmed p s
  if u.isWaking && u.wakeTo == 0#16 then enterSleep u else u

/-- In `On`: a press edge starts tracking; a long press forces the power-off, a release before it asks the host
(R253, R254). -/
def superviseOn (press p : Bool) (s : State) : State :=
  let u := if press then { s with pwrTrack := true, holdCnt := 0 } else s
  if u.pwrTrack then
    if u.params.longPressTicks ≤ u.holdCnt.toNat then enterSleep u
    else if p then u else enterPowerDown u
  else u

/-- In `PowerDown`: the release signal alone (R256, R257). -/
def supervisePowerDown (hostReleased : Bool) (s : State) : State := if hostReleased then enterSleep s else s

/-- The rules of the current mode; a reserved code does nothing (R245). -/
def superviseMode (press p hostReleased : Bool) (s : State) : State :=
  match s.mode with
  | some .sleep => superviseSleep press s
  | some .wakeUp => superviseWaking p s
  | some .powerUp => superviseWaking p s
  | some .on => superviseOn press p s
  | some .powerDown => supervisePowerDown hostReleased s
  | none => s

/-- `Supervise(host_released)` (R245). -/
def supervise (hostReleased : Bool) (s : State) : State :=
  let p := s.powerButton
  let press := p && !s.pwrPrev
  { superviseMode press p hostReleased s with pwrPrev := p }

/-- `Env.SetFlag(f, b)` (R262). -/
def envSetFlag (f : EnvFlag) (b : Bool) (s : State) : State := (setFlag (flagOfEnv f) b s).1

/-- `Env.ClockAdvance(v)` (R263): the signal line is not armed. -/
def envClockAdvance (v : List Byte) (s : State) : State := writeTime v s

/-- `Env.HapticDone(ok)` (R264, R185). -/
def envHapticDone (ok : Bool) (s : State) : State :=
  if s.hapticActive then notify (if ok then 0x09#8 else 0x0A#8) { s with hapticActive := false } else s

end Sys2Proof.Machine
end

