-- ==== Sys2Proof/Machine/Sequencer.lean ====
section
/-! DEFINITION. The steps of the agents: the command service (`41_messages.md`), the main-loop sequencer (R240), and one
step of any agent (R15). Here an instruction's carrier is fetched and decoded. -/

namespace Sys2Proof.Machine

/-- The error a decode rejection raises (R171, R310). -/
def causeOfDecode : DecodeError → Cause
  | .unknownOrdinal => .unknownOrdinal
  | .truncatedPayload => .truncatedPayload

/-- The pending command, decoded from the buffer and `rx_len` (R170, R171). -/
def fetchCommand (s : State) : Except Fault (Except DecodeError Instr) :=
  match memRead s 0 s.params.cap with
  | .error f => .error f
  | .ok buf => .ok (decodeBuffer s.params.dtBytes buf s.rxLen)

/-- `CommandService()` (R170): a command that does not decode is dropped, counted, not acted upon (R316). -/
def commandService (s : State) : Result :=
  if s.cmdPending then
    match fetchCommand s with
    | .error f => .fault f
    | .ok (.error e) => .next (finishCommand (raise (causeOfDecode e) s))
    | .ok (.ok i) => exec i s
  else .next { s with mlPhase := .buttons }

/-- `ml_phase <- (ml_phase + 1) mod 4` (R240). -/
def advancePhase (s : State) : State := { s with mlPhase := Phase.next s.mlPhase }

/-- `MainStep(btn_raw, adc_in, host_released)` (R240): only the input of the phase is read. -/
def mainStep (btnRaw : Byte) (adcIn : Half) (hostReleased : Bool) (s : State) : Result :=
  match s.mlPhase with
  | .buttons => .next (advancePhase (buttonSample btnRaw s))
  | .analog => .next (advancePhase (analogSample adcIn s))
  | .supervisor => .next (advancePhase (supervise hostReleased s))
  | .command => commandService s

/-- One step of the agent an event names, with its inputs (R15). -/
def runEvent (e : Event) (s : State) : Result :=
  match e with
  | .bus cond rx => exec (decodeBus cond rx) s
  | .tick => .next (tick s)
  | .wake => .next s
  | .main btnRaw adcIn hostReleased => mainStep btnRaw adcIn hostReleased s
  | .setFlag f b => .next (envSetFlag f b s)
  | .clockAdvance v => .next (envClockAdvance v s)
  | .hapticDone ok => .next (envHapticDone ok s)
  | .reset => .next (resetBlock s)

/-- The event the next step serves: the first of the queue, or a free one where the queue is empty (log 2). -/
def nextEvent (s : State) : Event :=
  match s.events with
  | e :: _ => e
  | [] => Config.freeEvent s.freeCtr

/-- The state in which that event is served: the event taken, no output driven yet (log 4). -/
def takeEvent (s : State) : State :=
  match s.events with
  | _ :: rest => { s with events := rest, out := .quiet }
  | [] => { s with freeCtr := s.freeCtr + 1, out := .quiet }

/-- A pending command of whole `CAP` bytes, about to be served: where the command service fetches its instruction. -/
def placeCommand (bytes : List Byte) (s : State) : State :=
  { s with
    ib := Memory.writeN [] 0 (fitBytes s.params.cap bytes), rxLen := s.params.cap, cmdPending := true,
    mlPhase := .command, events := .main 0x00 0x0000 false :: s.events }

/-- A condition vector about to be strobed: where the bus agent fetches its instruction. -/
def placeCondition (cond : BitVec 5) (rx : Byte) (s : State) : State := { s with events := .bus cond rx :: s.events }

end Sys2Proof.Machine
end

