-- ==== Sys2Proof/Machine/Step.lean ====
section
/-! DEFINITION. One step of the machine: one atomic transition of one agent (R12, R95). -/

namespace Sys2Proof.Machine

/-- The step: the next event, served by its agent (R12, R15, R96). -/
def step (s : State) : Host.Outcome State Fault Refusal := runEvent (nextEvent s) (takeEvent s)

/-- `s` with the instruction of an opcode-table word where `step` fetches its next instruction (log 8): a message as the
pending command with the command phase next, a condition as the next strobe. -/
def State.withFetchWord (s : State) (nbits w : Nat) : State :=
  match tableCarrier s.params.cap nbits w with
  | some (.message bytes) => placeCommand bytes s
  | some (.condition cond rx) => placeCondition cond rx s
  | none => placeCommand (bytesOfNat s.params.cap w) s

end Sys2Proof.Machine
end

