-- ==== Sys2Proof/Machine/HostProgram.lean ====
section
/-! DEFINITION. The notation for host programs (R140 to R142): a read transaction, a write transaction, a loop iteration,
each as steps of the machine on events that arrive next. -/

namespace Sys2Proof.Machine

/-- One step on the event `e`, which arrives before any other. -/
def feed (e : Event) (s : State) : Result := step { s with events := e :: s.events }

/-- The state after a step; none where it stops. -/
def nextOf : Result → Option State
  | .next t => some t
  | .fault _ => none
  | .refused _ => none

/-- Steps on a list of events, in order; none where one stops. -/
def feedAll : List Event → State → Option State
  | [], s => some s
  | e :: es, s => (nextOf (feed e s)).bind (feedAll es)

/-- The byte a read's step answered: `bus_tx` of a `DATA` response (R140). -/
def dataByte (s : State) : List Byte :=
  match s.out.resp with
  | some (.data b) => [b]
  | _ => []

/-- `n` times `DTS`: the bytes of the `DATA` responses, and the state. -/
def readBytes : Nat → State → Option (List Byte × State)
  | 0, s => some ([], s)
  | n + 1, s =>
    (nextOf (feed (.bus 0b10000 0x00) s)).bind fun t => (readBytes n t).map fun r => (dataByte t ++ r.1, r.2)

/-- `RD n`: `SOR`, `n` times `DTS` (at most `SR_BYTES + 1` times), `EOT` (R140). -/
def readTransaction (n : Nat) (s : State) : Option (List Byte × State) :=
  (nextOf (feed (.bus 0b00100 0x00) s)).bind fun t =>
    (readBytes (min n (s.params.srBytes + 1)) t).bind fun r =>
      (nextOf (feed (.bus 0b00001 0x00) r.2)).map fun u => (r.1, u)

/-- `DRX(b0)`, `DRX(b1)`, ... "each while the previous response was `ACK`": how many bytes were stored, and the state
(R141). -/
def writeBytes : List Byte → State → Option (Nat × State)
  | [], s => some (0, s)
  | b :: bs, s =>
    (nextOf (feed (.bus 0b01000 b) s)).bind fun t =>
      if t.out.resp = some .ack then (writeBytes bs t).map fun r => (r.1 + 1, r.2)
      else if t.out.resp = some .complete then some (1, t)
      else some (0, t)

/-- `WR b0 b1 ...`: none for `NACK`, else the count of bytes stored; and the state (R141). -/
def writeTransaction (bs : List Byte) (s : State) : Option (Option Nat × State) :=
  (nextOf (feed (.bus 0b00010 0x00) s)).bind fun t =>
    if t.out.resp = some .nack then (nextOf (feed (.bus 0b00001 0x00) t)).map fun u => (none, u)
    else
      (writeBytes bs t).bind fun r => (nextOf (feed (.bus 0b00001 0x00) r.2)).map fun u => (some r.1, u)

/-- The bytes a message mnemonic writes (R142); none for a condition, which is no message. -/
def messageBytes (i : Instr) : Option (List Byte) :=
  match encode i with
  | .message m => some m
  | .condition _ _ => none

/-- `TICK*n` (R142). -/
def ticks (n : Nat) (s : State) : Option State := feedAll (List.replicate n .tick) s

/-- `LOOP(btn_raw, adc_in, host_released)`: four `Main` steps (R142). -/
def mainLoop (btnRaw : Byte) (adcIn : Half) (hostReleased : Bool) (s : State) : Option State :=
  feedAll (List.replicate 4 (.main btnRaw adcIn hostReleased)) s

end Sys2Proof.Machine
end

