-- ==== Sys2Proof/Machine/Ports.lean ====
section
/-! DEFINITION. The output ports of the block, each "the value of the register of the same name" (R61, R64, R65, R66). -/

namespace Sys2Proof.Machine

/-- The outputs a neighbour of the block sees after a step. -/
structure Ports where
  /-- `bus_resp`, driven in a `Bus` step -/
  busResp : Option (BitVec 2)
  /-- `bus_tx`, "meaningful only with `DATA`" -/
  busTx : Option Byte
  irq : Bool
  railEn : Bool
  samplingEn : Bool
  muxSel : BitVec 2
  brightnessOut : Byte
  alarmDtOut : List Byte
  /-- the event `haptic_req` -/
  hapticReq : Option (Byte × Byte)
  /-- the event `notify_out` -/
  notifyOut : Option Byte
  dbgBusErrCnt : Byte
  dbgBusErrLast : Byte
  dbgMsgDropCnt : Byte
  dbgMsgErrLast : Byte
  deriving DecidableEq, Repr

/-- The byte of a response (R61). -/
def Response.byte : Response → Option Byte
  | .ack => none
  | .nack => none
  | .data b => some b
  | .complete => none

/-- What the ports show. -/
def State.ports (s : State) : Ports where
  busResp := s.out.resp.map Response.code
  busTx := s.out.resp.bind Response.byte
  irq := s.irq
  railEn := s.railEn
  samplingEn := s.samplingEn
  muxSel := Channel.code s.muxSel
  brightnessOut := s.brightness
  alarmDtOut := s.alarmDt
  hapticReq := s.out.hapticReq
  notifyOut := s.out.notify
  dbgBusErrCnt := s.busErrCnt
  dbgBusErrLast := s.busErrLast
  dbgMsgDropCnt := s.msgDropCnt
  dbgMsgErrLast := s.msgErrLast

end Sys2Proof.Machine
end

