-- ==== Sys2Proof/Safety.lean ====
section
/-! DEFINITION. What counts as a safe state: the invariants of R48, "they hold after reset and after every step", with the
shape of the register files (R20, R36, R44, R364). -/

namespace Sys2Proof.Machine

/-- The invariants of R48, item by item, with the lengths of the register files and the canonical form of the inbound
space. -/
structure Invariants (s : State) : Prop where
  /-- R364 item 1 -/
  params_wf : s.params.wf
  /-- R26: `DT_BYTES` time registers -/
  time_length : s.time.length = s.params.dtBytes
  /-- R44: `DT_BYTES` alarm registers -/
  alarm_length : s.alarmDt.length = s.params.dtBytes
  /-- R36: `N_BTN` timers -/
  timer_length : s.btnTimer.length = s.params.nBtn
  /-- the inbound space has its canonical form -/
  ib_wf : Memory.wf s.ib = true
  /-- R215 (a): nothing is stored at `CAP` or above -/
  ib_below : Memory.below s.params.cap s.ib = true
  /-- R48 item 1 -/
  tx_le : s.txCur ≤ s.params.srBytes
  /-- R48 item 1 -/
  rx_le : s.rxLen ≤ s.params.cap
  /-- R48 item 2 -/
  pending_done : s.cmdPending = true → s.busState ≠ .receivingCommand ∧ 1 ≤ s.rxLen
  /-- R48 item 3 -/
  receiving_room : s.busState = .receivingCommand → s.rxLen < s.params.cap
  /-- R48 item 4 -/
  mode_legal : s.mode = some .sleep ∨ s.mode = some .wakeUp ∨ s.mode = some .on ∨ s.mode = some .powerDown
  /-- R48 item 5 -/
  rail_sampling : s.railEn = s.samplingEn
  /-- R48 item 5 -/
  sampling_mode : s.samplingEn = true ↔ s.mode ≠ some .sleep
  /-- R48 item 6 -/
  buttons_high : ∀ i, s.params.nBtn ≤ i → s.buttons.getLsbD i = false
  /-- R48 item 7 -/
  confirmed_mode : s.confirmed = true → s.mode = some .wakeUp
  /-- R48 item 7 -/
  wake_mode : s.wakeTo ≠ 0#16 → s.mode = some .wakeUp
  /-- R48 item 8 -/
  track_mode : s.pwrTrack = true → s.mode = some .wakeUp ∨ s.mode = some .on
  /-- R48 item 9 -/
  timer_le : ∀ t ∈ s.btnTimer, t.toNat ≤ s.params.debounceTicks
  /-- R48 item 10 -/
  due_sampling : s.sampleDue = true → s.samplingEn = true

end Sys2Proof.Machine
end

