-- ==== Sys2Proof/Certificates/Slice0/Obligations.lean ====
section
/-! DEFINITION. The statements for the provers. A frame is written `t = { s with r := t.r, … }`: the next state `t` agrees
with `s` in every register that is not listed (`{ s with … }` keeps all the others), and the listed ones have their own
clauses. The outputs `out` are the ports of this step; `s.out` is what the same step has driven before. -/

namespace Sys2Proof.Views

open Sys2Proof.Machine

/-- No byte of the inbound space differs. -/
def SameInbound (s t : State) : Prop := ∀ a, Memory.read t.ib a = Memory.read s.ib a

/-- `Contact()` as R252 and R251 give it, on the registers it may write. -/
def ContactDone (s t : State) : Prop :=
  if s.mode = some .wakeUp ∨ s.mode = some .powerUp then
    t.mode = some .on ∧ (∀ f, flagOf f t.status = flagOf f s.status) ∧ t.irq = true ∧ t.pwrTrack = false ∧
      t.holdCnt = 0 ∧ t.confirmed = false ∧ t.wakeTo = 0
  else
    t.status = s.status ∧ t.irq = s.irq ∧ t.pwrTrack = s.pwrTrack ∧ t.holdCnt = s.holdCnt ∧
      t.confirmed = s.confirmed ∧ t.wakeTo = s.wakeTo

/-- Every register at the value of R49: the record, the inbound space, and all the others. -/
def AllAtReset (t : State) : Prop :=
  (∀ k, k < t.params.srBytes → t.recordByte k = 0) ∧ t.time.length = t.params.dtBytes ∧
  (∀ a, Memory.read t.ib a = 0) ∧ t.rxLen = 0 ∧ t.cmdPending = false ∧ t.busState = .idle ∧ t.txCur = 0 ∧ t.irq = false ∧
  t.btnTimer = List.replicate t.params.nBtn 0 ∧ t.pwrPrev = false ∧ t.pwrTrack = false ∧ t.confirmed = false ∧
  t.holdCnt = 0 ∧ t.wakeTo = 0 ∧ t.muxSel = .joyX ∧ t.muxDiv = 0 ∧ t.sampleDue = false ∧ t.railEn = false ∧
  t.samplingEn = false ∧ t.mlPhase = .buttons ∧ t.brightness = 0 ∧ t.alarmDt = List.replicate t.params.dtBytes 0 ∧
  t.hapticActive = false ∧ t.busErrCnt = 0 ∧ t.busErrLast = 0 ∧ t.msgDropCnt = 0 ∧ t.msgErrLast = 0

/-- The next step is the main loop's, in phase `ph`. -/
def InPhase (s : State) (ph : Phase) : Prop := (∃ b a h, nextEvent s = .main b a h) ∧ s.mlPhase = ph

/-- The next step serves the pending message `i`. -/
def Serves (s : State) (i : Instr) : Prop :=
  InPhase s .command ∧ s.cmdPending = true ∧ fetchCommand s = .ok (.ok i)

/-- The next step is a reset, by the input or by the message (R361). -/
def Resets (s : State) : Prop := nextEvent s = .reset ∨ Serves s .reset

/-- The registers a mode entry of the supervisor may write, with the end of its step (R245). -/
def SupervisorFrame (s t : State) : Prop :=
  t = { s with
    status := t.status, irq := t.irq, pwrTrack := t.pwrTrack, holdCnt := t.holdCnt, confirmed := t.confirmed
    wakeTo := t.wakeTo, railEn := t.railEn, samplingEn := t.samplingEn, sampleDue := t.sampleDue, muxDiv := t.muxDiv
    pwrPrev := s.buttons.getLsbD s.params.pwrBtn, mlPhase := .command, out := t.out, hapticActive := t.hapticActive }

/-- The block has entered `Sleep` from another mode as R244 and R243 say: the rail cut, the sampling off, the line armed,
the flags kept. It says nothing of a haptic request: a confirmation may emit one in the step in which the timeout falls. -/
def SleepEntered (s t : State) : Prop :=
  t.mode = some .sleep ∧ (∀ f, flagOf f t.status = flagOf f s.status) ∧ t.irq = true ∧ t.railEn = false ∧
    t.samplingEn = false ∧ t.sampleDue = false ∧ t.muxDiv = 0 ∧ t.confirmed = false ∧ t.wakeTo = 0 ∧
    t.pwrTrack = false ∧ t.holdCnt = 0

/-- The outputs and the haptic bit as the step found them. -/
def QuietHaptic (s t : State) : Prop := t.out = s.out ∧ t.hapticActive = s.hapticActive

/-- A button press: pressed now, not at the supervisor's previous evaluation (R245). -/
def PressEdge (s : State) : Prop := s.buttons.getLsbD s.params.pwrBtn = true ∧ s.pwrPrev = false

end Sys2Proof.Views

open Sys2Proof Sys2Proof.Machine Sys2Proof.Views

/-! ### Encoding -/

/-- Decoding the encoding of a well-formed instruction gives it back, every operand at every value. R121, R122, R123, R130. -/
def Obligations.DecodeOfEncode : Prop :=
  ∀ (dtBytes : Nat) (i : Instr), i.wf dtBytes = true → decode dtBytes (encode i) = .ok i

/-- R124, R171: bytes after a message's size change nothing; with any byte fewer the message is rejected by name. -/
def Obligations.MessageLengthDecidesDecoding : Prop :=
  ∀ (dtBytes : Nat) (i : Instr) (m tail : List Byte), i.wf dtBytes = true → encode i = .message m →
    decodeMessage dtBytes (m ++ tail) = .ok i ∧
    (∀ k, 0 < k → k < m.length → decodeMessage dtBytes (m.take k) = .error .truncatedPayload)

/-- R171, with R182 and R183: the four outcomes of the validation, in their order. -/
def Obligations.ValidationOrder : Prop :=
  ∀ (dtBytes : Nat) (buf : List Byte) (len : Nat),
    (0x0C ≤ (byteAt buf 0).toNat → decodeBuffer dtBytes buf len = .error .unknownOrdinal) ∧
    (byteAt buf 0 = 0x09#8 → decodeBuffer dtBytes buf len = .ok .hapticAck) ∧
    (byteAt buf 0 = 0x0A#8 → decodeBuffer dtBytes buf len = .ok .hapticFail) ∧
    (∀ size, messageSize dtBytes (byteAt buf 0) = some size → byteAt buf 0 ≠ 0x09#8 → byteAt buf 0 ≠ 0x0A#8 →
      (len < size → decodeBuffer dtBytes buf len = .error .truncatedPayload) ∧
      (size ≤ len → ∃ i, decodeBuffer dtBytes buf len = .ok i ∧ ∃ m, encode i = .message (byteAt buf 0 :: m) ∧
        m.length + 1 = size ∧ ∀ k, k < m.length → m.getD k 0 = byteAt buf (k + 1)))

/-- R130, R330: the first flag set, from dts down to eot, names the condition; with no flag set it is `OTHER`. Each row is
the table's match and mask. -/
def Obligations.ConditionPriority : Prop :=
  ∀ (c : BitVec 5) (rx : Byte),
    (c &&& 0b10000 = 0b10000 ↔ decodeBus c rx = .dts) ∧ (c &&& 0b11000 = 0b01000 ↔ decodeBus c rx = .drx rx) ∧
    (c &&& 0b11100 = 0b00100 ↔ decodeBus c rx = .sor) ∧ (c &&& 0b11110 = 0b00010 ↔ decodeBus c rx = .sow) ∧
    (c &&& 0b11111 = 0b00001 ↔ decodeBus c rx = .eot) ∧ (c &&& 0b11111 = 0b00000 ↔ decodeBus c rx = .other)

/-- Words written out from R121 and R130 decode to their instructions: a sanity statement. -/
def Obligations.SpecWordsDecode : Prop :=
  decodeMessage 4 [0x00] = .ok .nop ∧ decodeMessage 4 [0x05, 0x80] = .ok (.setBrightness 0x80) ∧
  decodeMessage 4 [0x06, 0x11, 0x22, 0x33, 0x44] = .ok (.setClock [0x11, 0x22, 0x33, 0x44]) ∧
  decodeMessage 4 [0x08, 0x40, 0x0A] = .ok (.haptic 0x40 0x0A) ∧ decodeMessage 4 [0x0B] = .ok .powerDown ∧
  decodeBus 0b11000 0xAA = .dts ∧ decodeBus 0b01000 0x44 = .drx 0x44 ∧ decodeBus 0b00110 0 = .sor ∧
  decodeBus 0b00011 0 = .sow ∧ decodeBus 0b00001 0 = .eot ∧ decodeBus 0b00000 0 = .other

/-! ### The step -/

/-- A strobe's condition is decoded and served: a step at a bus event is `exec` of the decoded condition, the event taken
and the ports quiet. The queue the event is taken from and the quiet ports are the model's (logs 2 and 4). -/
def Obligations.StepRunsDecodedCondition : Prop :=
  ∀ (s : State) (c : BitVec 5) (rx : Byte) (rest : List Event), s.events = .bus c rx :: rest →
    step s = exec (decodeBus c rx) { s with events := rest, out := .quiet }

/-- R170: a step of the main loop in phase `Command` with a command pending is `exec` of the message that the buffer's
bytes and `rx_len` decode to, the event taken and the ports quiet. The queue the event is taken from and the quiet ports
are the model's (logs 2 and 4). -/
def Obligations.StepRunsDecodedMessage : Prop :=
  ∀ (s : State) (b : Byte) (a : Half) (h : Bool) (rest : List Event) (i : Instr),
    s.events = .main b a h :: rest → s.mlPhase = .command → s.cmdPending = true →
    decodeBuffer s.params.dtBytes (Memory.readN s.ib 0 s.params.cap) s.rxLen = .ok i →
    step s = exec i { s with events := rest, out := .quiet }

/-- R170, R171, R316: a command that does not decode is dropped: counted once, its cause recorded, the flag cleared,
nothing else; it is not a contact and does not arm the line. The queue the input is taken from and the quiet ports are
the model's (logs 2 and 4). -/
def Obligations.UndecodableCommandIsDropped : Prop :=
  ∀ (s : State) (b : Byte) (a : Half) (h : Bool) (rest : List Event) (e : DecodeError),
    s.events = .main b a h :: rest → s.mlPhase = .command → s.cmdPending = true →
    decodeBuffer s.params.dtBytes (Memory.readN s.ib 0 s.params.cap) s.rxLen = .error e →
    ∃ t, step s = .next t ∧
      t = { s with
        msgDropCnt := t.msgDropCnt, msgErrLast := t.msgErrLast, cmdPending := false, mlPhase := .buttons
        events := rest, out := .quiet } ∧
      t.msgDropCnt.toNat = min (s.msgDropCnt.toNat + 1) 255 ∧
      t.msgErrLast = (match e with | .unknownOrdinal => 4#8 | .truncatedPayload => 5#8) ∧ SameInbound s t

/-- R170: with no command pending the service only returns the loop to phase `Buttons`. The queue the input is taken
from and the quiet ports are the model's (logs 2 and 4). -/
def Obligations.IdleCommandPhaseOnlyAdvances : Prop :=
  ∀ (s : State) (b : Byte) (a : Half) (h : Bool) (rest : List Event),
    s.events = .main b a h :: rest → s.mlPhase = .command → s.cmdPending = false →
    step s = .next { s with mlPhase := .buttons, events := rest, out := .quiet }

/-- R12, R15, R16: a step serves the next input by the agent it names; where none waits, a free one (the model's choice,
log 2). -/
def Obligations.StepServesNextInput : Prop :=
  ∀ s : State,
    (∀ e rest, s.events = e :: rest → step s = runEvent e { s with events := rest, out := .quiet }) ∧
    (s.events = [] →
      step s = runEvent (Config.freeEvent s.freeCtr) { s with freeCtr := s.freeCtr + 1, out := .quiet })

/-! ### Invariants -/

/-- R48: every step keeps the invariants, from every state that meets them, whatever the agent and its inputs. -/
def Obligations.EveryStepKeepsInvariants : Prop :=
  ∀ s t : State, Invariants s → step s = .next t → Invariants t

/-- R48, R360: the invariants hold after reset, under every choice of the parameters; in particular under the model's
(log 1). -/
def Obligations.ResetMeetsInvariants : Prop :=
  (∀ p : Params, p.wf → Invariants (State.resetFor p)) ∧ Invariants State.reset

/-- R215 (f), R311: from a state that meets the invariants no step stops, whatever the agent and its inputs: no error is
fatal. -/
def Obligations.InvariantStatesAlwaysStep : Prop :=
  ∀ s : State, Invariants s → ∃ t, step s = .next t

/-- R8: the parameters never change while the block runs. That they stand in State is the model's choice (log 1). -/
def Obligations.ParametersNeverChange : Prop :=
  ∀ s t : State, step s = .next t → t.params = s.params

/-! ### The raw bus conditions -/

/-- R202: `SOR` always clears the line, resets the send cursor and acknowledges; inside a write it first ends the write.
Nothing else changes. Encoding `001xx`. -/
def Obligations.SorStartsRead : Prop :=
  (∀ (c : BitVec 5) (rx : Byte), c &&& 0b11100 = 0b00100 → decodeBus c rx = .sor) ∧
  ∀ s : State, ∃ t, exec .sor s = .next t ∧
    t = { s with
      irq := false, txCur := 0, busState := .sendingState, cmdPending := t.cmdPending
      out := { s.out with resp := some .ack } } ∧
    (t.cmdPending = true ↔ s.cmdPending = true ∨ (s.busState = .receivingCommand ∧ 1 ≤ s.rxLen)) ∧ SameInbound s t

/-- R203: `DTS` in `SendingState` sends the live byte at the cursor and advances it, or completes past the end.
Encoding `1xxxx`. -/
def Obligations.DtsSendsLiveByte : Prop :=
  (∀ (c : BitVec 5) (rx : Byte), c &&& 0b10000 = 0b10000 → decodeBus c rx = .dts) ∧
  ∀ s : State, s.busState = .sendingState → ∃ t, exec .dts s = .next t ∧ SameInbound s t ∧
    (s.txCur < s.params.srBytes →
      t = { s with txCur := s.txCur + 1, out := { s.out with resp := some (.data (s.recordByte s.txCur)) } }) ∧
    (s.params.srBytes ≤ s.txCur →
      t = { s with busState := .idle, out := { s.out with resp := some .complete } })

/-- R209, R213: `DTS` outside `SendingState` is error 2: counted, aborted, `COMPLETE`; only a partial command is lost. -/
def Obligations.StrayDtsAborts : Prop :=
  ∀ s : State, s.busState ≠ .sendingState → ∃ t, exec .dts s = .next t ∧
    t = { s with
      busErrCnt := t.busErrCnt, busErrLast := 2, busState := .idle
      rxLen := if s.busState = .receivingCommand then 0 else s.rxLen, out := { s.out with resp := some .complete } } ∧
    t.busErrCnt.toNat = min (s.busErrCnt.toNat + 1) 255 ∧ SameInbound s t

/-- R204: `SOW` is accepted exactly when no command is pending after the end of an earlier write; the rejection leaves the
buffer, its length and the error counters alone. Encoding `0001x`. -/
def Obligations.SowAcceptsOnlyWhenNothingPending : Prop :=
  (∀ (c : BitVec 5) (rx : Byte), c &&& 0b11110 = 0b00010 → decodeBus c rx = .sow) ∧
  ∀ s : State, ∃ t, exec .sow s = .next t ∧ SameInbound s t ∧
    (if s.cmdPending = true ∨ (s.busState = .receivingCommand ∧ 1 ≤ s.rxLen) then
      t = { s with cmdPending := true, busState := .idle, out := { s.out with resp := some .nack } }
    else
      t = { s with rxLen := 0, busState := .receivingCommand, out := { s.out with resp := some .ack } })

/-- R206: `DRX` in `ReceivingCommand` stores its byte at `IB[rx_len]` and nowhere else; the byte that fills the buffer
completes the write and makes the command pending at once. Encoding `01xxx`. -/
def Obligations.DrxStoresByte : Prop :=
  (∀ (c : BitVec 5) (rx : Byte), c &&& 0b11000 = 0b01000 → decodeBus c rx = .drx rx) ∧
  ∀ (s : State) (b : Byte), s.busState = .receivingCommand → s.rxLen < s.params.cap → Memory.wf s.ib = true →
    ∃ t, exec (.drx b) s = .next t ∧
      t = { s with
        ib := t.ib, rxLen := s.rxLen + 1
        cmdPending := if s.rxLen + 1 < s.params.cap then s.cmdPending else true
        busState := if s.rxLen + 1 < s.params.cap then .receivingCommand else .idle
        out := { s.out with resp := some (if s.rxLen + 1 < s.params.cap then .ack else .complete) } } ∧
      Memory.read t.ib s.rxLen = b ∧ (∀ a, a ≠ s.rxLen → Memory.read t.ib a = Memory.read s.ib a) ∧
      Memory.wf t.ib = true

/-- R207: `DRX` outside `ReceivingCommand` is error 3: the byte is discarded and refused; a pending command is intact. -/
def Obligations.StrayDrxRefused : Prop :=
  ∀ (s : State) (b : Byte), s.busState ≠ .receivingCommand → ∃ t, exec (.drx b) s = .next t ∧
    t = { s with
      busErrCnt := t.busErrCnt, busErrLast := 3, busState := .idle, out := { s.out with resp := some .nack } } ∧
    t.busErrCnt.toNat = min (s.busErrCnt.toNat + 1) 255 ∧ SameInbound s t

/-- R11, R83: the one stop of the model, its own choice (log 6), outside the invariant of R48: a byte for an inbound
address that does not exist. -/
def Obligations.DrxPastCapacityFaults : Prop :=
  ∀ (s : State) (b : Byte), s.busState = .receivingCommand → s.params.cap ≤ s.rxLen →
    exec (.drx b) s = .fault (.inboundOutOfRange s.rxLen 1)

/-- R208: `EOT` goes to `Idle`, and ends a write: a command is pending if it stored a byte. Encoding `00001`. -/
def Obligations.EotEndsTransaction : Prop :=
  (∀ (c : BitVec 5) (rx : Byte), c &&& 0b11111 = 0b00001 → decodeBus c rx = .eot) ∧
  ∀ s : State, ∃ t, exec .eot s = .next t ∧
    t = { s with busState := .idle, cmdPending := t.cmdPending, out := { s.out with resp := some .ack } } ∧
    (t.cmdPending = true ↔ s.cmdPending = true ∨ (s.busState = .receivingCommand ∧ 1 ≤ s.rxLen)) ∧ SameInbound s t

/-- R212, R213: `OTHER` is error 1: counted, aborted, `COMPLETE`; the buffer, the flag and the record are not touched.
Encoding `00000`. -/
def Obligations.OtherAborts : Prop :=
  (∀ (c : BitVec 5) (rx : Byte), c &&& 0b11111 = 0b00000 → decodeBus c rx = .other) ∧
  ∀ s : State, ∃ t, exec .other s = .next t ∧
    t = { s with
      busErrCnt := t.busErrCnt, busErrLast := 1, busState := .idle
      rxLen := if s.busState = .receivingCommand then 0 else s.rxLen, out := { s.out with resp := some .complete } } ∧
    t.busErrCnt.toNat = min (s.busErrCnt.toNat + 1) 255 ∧ SameInbound s t

/-- R340, R214: a bus condition writes the bus registers, the flag, the line and the transport error registers at most,
clears no flag, arms no line, and stores no byte while a command is pending (R215 b). -/
def Obligations.BusConditionsWriteBusRegistersOnly : Prop :=
  ∀ (s t : State) (i : Instr), (∃ c rx, encode i = .condition c rx) → exec i s = .next t →
    t = { s with
      ib := t.ib, rxLen := t.rxLen, cmdPending := t.cmdPending, busState := t.busState, txCur := t.txCur, irq := t.irq
      busErrCnt := t.busErrCnt, busErrLast := t.busErrLast, out := t.out } ∧
    (s.cmdPending = true → t.cmdPending = true) ∧ (t.irq = true → s.irq = true) ∧ t.out.resp.isSome = true ∧
    (s.cmdPending = true → s.busState ≠ .receivingCommand → t.ib = s.ib ∧ t.rxLen = s.rxLen)

/-! ### The messages: the bytes that carry each, and what its service does -/

/-- R173: `NOP` has no effect but the end of its service; the mode does not change, not even from `WakeUp`. -/
def Obligations.NopHasNoEffect : Prop :=
  (∀ (dtBytes : Nat) (rest : List Byte), decodeMessage dtBytes (0x00 :: rest) = .ok .nop) ∧
  ∀ s : State, ∃ t, exec .nop s = .next t ∧ t = { s with cmdPending := false, mlPhase := .buttons } ∧
    t.mode = s.mode ∧ SameInbound s t

/-- R174, R360: `RESET` leaves every register at its reset value, in every mode. Three clauses are the model's choice: the
parameters, the waiting inputs with the counter of free inputs, and the ports are no registers; the first two survive
the reset and the ports are quiet (logs 1, 2, 3 and 4). -/
def Obligations.ResetMessageResetsEverything : Prop :=
  (∀ (dtBytes : Nat) (rest : List Byte), decodeMessage dtBytes (0x01 :: rest) = .ok .reset) ∧
  ∀ s : State, ∃ t, exec .reset s = .next t ∧ AllAtReset t ∧ t.mode = some .sleep ∧ t.params = s.params ∧
    t.events = s.events ∧ t.freeCtr = s.freeCtr ∧ t.out = .quiet

/-- R175, R172, R252: `INFO` is a contact and nothing else. -/
def Obligations.InfoIsContactOnly : Prop :=
  (∀ (dtBytes : Nat) (rest : List Byte), decodeMessage dtBytes (0x02 :: rest) = .ok .info) ∧
  ∀ s : State, ∃ t, exec .info s = .next t ∧
    t = { s with
      status := t.status, irq := t.irq, pwrTrack := t.pwrTrack, holdCnt := t.holdCnt, confirmed := t.confirmed
      wakeTo := t.wakeTo, cmdPending := false, mlPhase := .buttons } ∧
    ContactDone s t ∧ SameInbound s t

/-- R176, R177, R27, R172: `REC_START` and `REC_STOP` set and clear `rec` after the contact, leave the other flags, and
arm the line if and only if the flag or the mode changed. -/
def Obligations.RecordingMessagesSetFlag : Prop :=
  (∀ (dtBytes : Nat) (rest : List Byte), decodeMessage dtBytes (0x03 :: rest) = .ok .recStart) ∧
  (∀ (dtBytes : Nat) (rest : List Byte), decodeMessage dtBytes (0x04 :: rest) = .ok .recStop) ∧
  ∀ (s : State) (i : Instr) (b : Bool), (i = .recStart ∧ b = true) ∨ (i = .recStop ∧ b = false) →
    ∃ t, exec i s = .next t ∧
      t = { s with
        status := t.status, irq := t.irq, pwrTrack := t.pwrTrack, holdCnt := t.holdCnt, confirmed := t.confirmed
        wakeTo := t.wakeTo, cmdPending := false, mlPhase := .buttons } ∧
      flagOf .recording t.status = b ∧ (∀ f, f ≠ .recording → flagOf f t.status = flagOf f s.status) ∧
      SameInbound s t ∧
      (if s.mode = some .wakeUp ∨ s.mode = some .powerUp then
        t.mode = some .on ∧ t.irq = true ∧ t.pwrTrack = false ∧ t.holdCnt = 0 ∧ t.confirmed = false ∧ t.wakeTo = 0
      else
        modeField t.status = modeField s.status ∧
          (t.irq = true ↔ s.irq = true ∨ flagOf .recording s.status ≠ b) ∧
          t.pwrTrack = s.pwrTrack ∧ t.holdCnt = s.holdCnt ∧ t.confirmed = s.confirmed ∧ t.wakeTo = s.wakeTo)

/-- R178, R172: `SET_BRIGHTNESS v` writes `brightness` after the contact; it does not arm the line by itself. -/
def Obligations.SetBrightnessWritesRegister : Prop :=
  (∀ (dtBytes : Nat) (v : Byte) (rest : List Byte),
    decodeMessage dtBytes (0x05 :: v :: rest) = .ok (.setBrightness v) ∧
      decodeMessage dtBytes [0x05] = .error .truncatedPayload) ∧
  ∀ (s : State) (v : Byte), ∃ t, exec (.setBrightness v) s = .next t ∧
    t = { s with
      status := t.status, irq := t.irq, pwrTrack := t.pwrTrack, holdCnt := t.holdCnt, confirmed := t.confirmed
      wakeTo := t.wakeTo, cmdPending := false, mlPhase := .buttons, brightness := v } ∧
    ContactDone s t ∧ SameInbound s t ∧ t.ports.brightnessOut = v

/-- R179, R172: `SET_CLOCK d` writes all the time bytes in one step after the contact; it does not arm the line by
itself. -/
def Obligations.SetClockWritesTime : Prop :=
  (∀ (dtBytes : Nat) (m : List Byte), decodeMessage dtBytes (0x06 :: m) =
    if m.length < dtBytes then .error .truncatedPayload else .ok (.setClock (m.take dtBytes))) ∧
  ∀ (s : State) (d : List Byte), d.length = s.params.dtBytes → ∃ t, exec (.setClock d) s = .next t ∧
    t = { s with
      status := t.status, irq := t.irq, pwrTrack := t.pwrTrack, holdCnt := t.holdCnt, confirmed := t.confirmed
      wakeTo := t.wakeTo, cmdPending := false, mlPhase := .buttons, time := d } ∧
    ContactDone s t ∧ (∀ k, k < s.params.dtBytes → t.recordByte (6 + k) = d.getD k 0) ∧ SameInbound s t

/-- R180, R172: `SET_ALARM d` writes all the alarm bytes after the contact; the alarm flag is not touched. -/
def Obligations.SetAlarmWritesRegister : Prop :=
  (∀ (dtBytes : Nat) (m : List Byte), decodeMessage dtBytes (0x07 :: m) =
    if m.length < dtBytes then .error .truncatedPayload else .ok (.setAlarm (m.take dtBytes))) ∧
  ∀ (s : State) (d : List Byte), d.length = s.params.dtBytes → ∃ t, exec (.setAlarm d) s = .next t ∧
    t = { s with
      status := t.status, irq := t.irq, pwrTrack := t.pwrTrack, holdCnt := t.holdCnt, confirmed := t.confirmed
      wakeTo := t.wakeTo, cmdPending := false, mlPhase := .buttons, alarmDt := d } ∧
    ContactDone s t ∧ flagOf .alarm t.status = flagOf .alarm s.status ∧ SameInbound s t ∧
    t.ports.alarmDtOut = d

/-- R181, R172: `HAPTIC i d` emits the request with its two bytes and marks the pulse active, after the contact. -/
def Obligations.HapticEmitsRequest : Prop :=
  (∀ (dtBytes : Nat) (i d : Byte) (rest : List Byte),
    decodeMessage dtBytes (0x08 :: i :: d :: rest) = .ok (.haptic i d) ∧
      decodeMessage dtBytes [0x08, i] = .error .truncatedPayload ∧
      decodeMessage dtBytes [0x08] = .error .truncatedPayload) ∧
  ∀ (s : State) (i d : Byte), ∃ t, exec (.haptic i d) s = .next t ∧
    t = { s with
      status := t.status, irq := t.irq, pwrTrack := t.pwrTrack, holdCnt := t.holdCnt, confirmed := t.confirmed
      wakeTo := t.wakeTo, cmdPending := false, mlPhase := .buttons, hapticActive := true
      out := { s.out with hapticReq := some (i, d) } } ∧
    ContactDone s t ∧ SameInbound s t

/-- R182, R183, R316: `HAPTIC_ACK` and `HAPTIC_FAIL` from the host are dropped with cause 6: counted, nothing else, not a
contact. -/
def Obligations.HapticRepliesFromHostDropped : Prop :=
  (∀ (dtBytes : Nat) (rest : List Byte), decodeMessage dtBytes (0x09 :: rest) = .ok .hapticAck) ∧
  (∀ (dtBytes : Nat) (rest : List Byte), decodeMessage dtBytes (0x0A :: rest) = .ok .hapticFail) ∧
  ∀ (s : State) (i : Instr), i = .hapticAck ∨ i = .hapticFail → ∃ t, exec i s = .next t ∧
    t = { s with msgDropCnt := t.msgDropCnt, msgErrLast := 6, cmdPending := false, mlPhase := .buttons } ∧
    t.msgDropCnt.toNat = min (s.msgDropCnt.toNat + 1) 255 ∧ SameInbound s t

/-- R184, R255: `POWER_DOWN` takes `On`, and `WakeUp` through the contact, to `PowerDown`, arms the line and leaves the
rail; in every other mode it only ends its service. -/
def Obligations.PowerDownActsInOnOnly : Prop :=
  (∀ (dtBytes : Nat) (rest : List Byte), decodeMessage dtBytes (0x0B :: rest) = .ok .powerDown) ∧
  ∀ s : State, ∃ t, exec .powerDown s = .next t ∧
    t = { s with
      status := t.status, irq := t.irq, pwrTrack := t.pwrTrack, holdCnt := t.holdCnt, confirmed := t.confirmed
      wakeTo := t.wakeTo, cmdPending := false, mlPhase := .buttons } ∧
    (∀ f, flagOf f t.status = flagOf f s.status) ∧ SameInbound s t ∧
    (if s.mode = some .wakeUp ∨ s.mode = some .powerUp then
      t.mode = some .powerDown ∧ t.irq = true ∧ t.pwrTrack = false ∧ t.holdCnt = 0 ∧ t.confirmed = false ∧ t.wakeTo = 0
    else if s.mode = some .on then
      t.mode = some .powerDown ∧ t.irq = true ∧ t.pwrTrack = false ∧ t.holdCnt = 0 ∧ t.confirmed = s.confirmed ∧
        t.wakeTo = s.wakeTo
    else t = { s with cmdPending := false, mlPhase := .buttons })

/-! ### The supervisor -/

/-- R246, R245: in `Sleep` a press edge (log 18) wakes the block: rail and sampling on, the timeout loaded, the press
tracked, the line armed. Without a press edge only the button's previous level and the phase are written. -/
def Obligations.PressInSleepWakes : Prop :=
  ∀ (s : State) (b : Byte) (a : Half) (h : Bool), s.mlPhase = .supervisor → s.mode = some .sleep →
    ∃ t, mainStep b a h s = .next t ∧ SupervisorFrame s t ∧ QuietHaptic s t ∧
      (PressEdge s →
        t.mode = some .wakeUp ∧ (∀ f, flagOf f t.status = flagOf f s.status) ∧ t.irq = true ∧ t.railEn = true ∧
          t.samplingEn = true ∧ t.muxDiv = 0 ∧ t.wakeTo = BitVec.ofNat 16 s.params.wakeTimeoutTicks ∧
          t.confirmed = false ∧ t.pwrTrack = true ∧ t.holdCnt = 0 ∧ t.sampleDue = s.sampleDue) ∧
      (¬ PressEdge s → t = { s with pwrPrev := s.buttons.getLsbD s.params.pwrBtn, mlPhase := .command })

/-- R247, R248, R249, R250: in `WakeUp` (and `PowerUp`, R258) an unconfirmed press that reached the threshold is confirmed,
an unconfirmed press released below it goes back to `Sleep`, and a timeout goes back to `Sleep`, in this order. -/
def Obligations.WakeUpConfirmsFallsBackOrTimesOut : Prop :=
  ∀ (s : State) (b : Byte) (a : Half) (h : Bool), s.mlPhase = .supervisor →
    s.mode = some .wakeUp ∨ s.mode = some .powerUp →
    ∃ t, mainStep b a h s = .next t ∧ SupervisorFrame s t ∧
      (if s.confirmed = false ∧ s.holdCnt.toNat < s.params.wakeHoldTicks ∧
          s.buttons.getLsbD s.params.pwrBtn = false then SleepEntered s t ∧ QuietHaptic s t
      else
        (if s.confirmed = false ∧ s.params.wakeHoldTicks ≤ s.holdCnt.toNat then
          (∀ i d, s.params.wakeHaptic = some (i, d) →
            t.hapticActive = true ∧ t.out = { s.out with hapticReq := some (i, d) }) ∧
          (s.params.wakeHaptic = none → QuietHaptic s t)
        else QuietHaptic s t) ∧
        (if s.wakeTo = 0#16 then SleepEntered s t
        else
          t.status = s.status ∧ t.irq = s.irq ∧ t.pwrTrack = s.pwrTrack ∧ t.holdCnt = s.holdCnt ∧
            t.wakeTo = s.wakeTo ∧ t.railEn = s.railEn ∧ t.samplingEn = s.samplingEn ∧ t.sampleDue = s.sampleDue ∧
            t.muxDiv = s.muxDiv ∧
            (t.confirmed = true ↔ s.confirmed = true ∨ s.params.wakeHoldTicks ≤ s.holdCnt.toNat)))

/-- R253, R254: in `On` a press edge starts the tracking; a tracked press that reached the long threshold cuts the rail at
once, and one released below it asks the host to shut down with the rail still on. -/
def Obligations.OnPressesRequestOrForcePowerOff : Prop :=
  ∀ (s : State) (b : Byte) (a : Half) (h : Bool), s.mlPhase = .supervisor → s.mode = some .on →
    1 ≤ s.params.longPressTicks →
    ∃ t, mainStep b a h s = .next t ∧ SupervisorFrame s t ∧ QuietHaptic s t ∧
      (PressEdge s →
        t = { s with pwrTrack := true, holdCnt := 0, pwrPrev := true, mlPhase := .command }) ∧
      (¬ PressEdge s → s.pwrTrack = true → s.params.longPressTicks ≤ s.holdCnt.toNat → SleepEntered s t) ∧
      (¬ PressEdge s → s.pwrTrack = true → s.holdCnt.toNat < s.params.longPressTicks →
        s.buttons.getLsbD s.params.pwrBtn = false →
        t.mode = some .powerDown ∧ (∀ f, flagOf f t.status = flagOf f s.status) ∧ t.irq = true ∧
          t.railEn = s.railEn ∧ t.samplingEn = s.samplingEn ∧ t.pwrTrack = false ∧ t.holdCnt = 0 ∧
          t.confirmed = s.confirmed ∧ t.wakeTo = s.wakeTo ∧ t.sampleDue = s.sampleDue ∧ t.muxDiv = s.muxDiv) ∧
      (¬ PressEdge s → (s.pwrTrack = false ∨ (s.holdCnt.toNat < s.params.longPressTicks ∧
          s.buttons.getLsbD s.params.pwrBtn = true)) →
        t = { s with pwrPrev := s.buttons.getLsbD s.params.pwrBtn, mlPhase := .command })

/-- R256, R257: `PowerDown` ends in `Sleep` when the host has released, and otherwise ignores the button and the time. -/
def Obligations.PowerDownEndsOnlyByRelease : Prop :=
  ∀ (s : State) (b : Byte) (a : Half) (h : Bool), s.mlPhase = .supervisor → s.mode = some .powerDown →
    ∃ t, mainStep b a h s = .next t ∧ SupervisorFrame s t ∧ QuietHaptic s t ∧
      (h = true → SleepEntered s t) ∧
      (h = false → t = { s with pwrPrev := s.buttons.getLsbD s.params.pwrBtn, mlPhase := .command })

/-- R242: "No other rule changes the mode": every change of mode, with its trigger. A `POWER_DOWN` served in `WakeUp`
passes `On` within its step (R184). -/
def Obligations.ModeChangesOnlyByTheTable : Prop :=
  ∀ s t : State, Invariants s → step s = .next t → t.mode ≠ s.mode →
    (s.mode = some .sleep ∧ t.mode = some .wakeUp ∧ InPhase s .supervisor ∧ PressEdge s) ∨
    (s.mode = some .wakeUp ∧ t.mode = some .sleep ∧ InPhase s .supervisor ∧
      ((s.confirmed = false ∧ s.holdCnt.toNat < s.params.wakeHoldTicks ∧ s.buttons.getLsbD s.params.pwrBtn = false) ∨
        s.wakeTo = 0#16)) ∨
    (s.mode = some .wakeUp ∧ t.mode = some .on ∧
      ∃ i, Serves s i ∧ i ≠ .nop ∧ i ≠ .hapticAck ∧ i ≠ .hapticFail ∧ i ≠ .reset ∧ i ≠ .powerDown) ∨
    (s.mode = some .wakeUp ∧ t.mode = some .powerDown ∧ Serves s .powerDown) ∨
    (s.mode = some .on ∧ t.mode = some .powerDown ∧
      (Serves s .powerDown ∨
        (InPhase s .supervisor ∧ s.pwrTrack = true ∧ s.holdCnt.toNat < s.params.longPressTicks ∧
          s.buttons.getLsbD s.params.pwrBtn = false))) ∨
    (s.mode = some .on ∧ t.mode = some .sleep ∧ InPhase s .supervisor ∧ s.pwrTrack = true ∧
      s.params.longPressTicks ≤ s.holdCnt.toNat) ∨
    (s.mode = some .powerDown ∧ t.mode = some .sleep ∧ s.mlPhase = .supervisor ∧ ∃ b a, nextEvent s = .main b a true) ∨
    (t.mode = some .sleep ∧ Resets s)

/-! ### The sampler, the tick, the multiplexer -/

/-- R281: a change of an unlocked button is accepted and locks it; every other bit and timer is as before; the line is
armed once if at least one bit changed. -/
def Obligations.ButtonSampleAcceptsUnlocked : Prop :=
  ∀ (s : State) (b : Byte) (a : Half) (h : Bool), s.mlPhase = .buttons → s.btnTimer.length = s.params.nBtn →
    s.params.nBtn ≤ 8 →
    ∃ t, mainStep b a h s = .next t ∧
      t = { s with buttons := t.buttons, btnTimer := t.btnTimer, irq := t.irq, mlPhase := .analog } ∧
      t.btnTimer.length = s.params.nBtn ∧
      (∀ i, i < s.params.nBtn →
        if s.btnTimer.getD i 0#8 = 0#8 ∧ b.getLsbD i ≠ s.buttons.getLsbD i then
          t.buttons.getLsbD i = b.getLsbD i ∧ t.btnTimer.getD i 0#8 = BitVec.ofNat 8 s.params.debounceTicks
        else t.buttons.getLsbD i = s.buttons.getLsbD i ∧ t.btnTimer.getD i 0#8 = s.btnTimer.getD i 0#8) ∧
      (∀ i, s.params.nBtn ≤ i → t.buttons.getLsbD i = s.buttons.getLsbD i) ∧
      (t.irq = true ↔ s.irq = true ∨
        ∃ i, i < s.params.nBtn ∧ s.btnTimer.getD i 0#8 = 0#8 ∧ b.getLsbD i ≠ s.buttons.getLsbD i)

/-- R285: the tick counts, and writes nothing else: not the record, not the line, not the mode. -/
def Obligations.TickOnlyCounts : Prop :=
  ∀ s : State, ∃ t, runEvent .tick s = .next t ∧
    t = { s with
      btnTimer := t.btnTimer, holdCnt := t.holdCnt, wakeTo := t.wakeTo, muxDiv := t.muxDiv, sampleDue := t.sampleDue } ∧
    t.btnTimer.map BitVec.toNat = s.btnTimer.map (fun c => c.toNat - 1) ∧
    t.holdCnt.toNat =
      (if s.pwrTrack = true ∧ s.buttons.getLsbD s.params.pwrBtn = true then min (s.holdCnt.toNat + 1) 65535
      else s.holdCnt.toNat) ∧
    t.wakeTo.toNat =
      (if s.mode = some .wakeUp ∨ s.mode = some .powerUp then s.wakeTo.toNat - 1 else s.wakeTo.toNat) ∧
    (if s.samplingEn = true then
      (s.muxDiv = 0#16 → t.sampleDue = true ∧ t.muxDiv = BitVec.ofNat 16 (s.params.analogPeriodTicks - 1)) ∧
      (s.muxDiv ≠ 0#16 → t.sampleDue = s.sampleDue ∧ t.muxDiv.toNat = s.muxDiv.toNat - 1)
    else t.sampleDue = s.sampleDue ∧ t.muxDiv = s.muxDiv)

/-- R296, R297: a conversion that is due is encoded into its channel's byte, arms the line if and only if the byte changed,
and passes to the next channel; otherwise the phase does nothing. -/
def Obligations.AnalogSampleEncodesChannel : Prop :=
  ∀ (s : State) (b : Byte) (a : Half) (h : Bool), s.mlPhase = .analog →
    ∃ t, mainStep b a h s = .next t ∧
      (if s.samplingEn = true ∧ s.sampleDue = true then
        t = { s with
          joyX := if s.muxSel = .joyX then BitVec.ofNat 8 a.toNat else s.joyX
          joyY := if s.muxSel = .joyY then BitVec.ofNat 8 a.toNat else s.joyY
          vbatt := t.vbatt, temp := t.temp, irq := t.irq, muxSel := t.muxSel, sampleDue := false
          mlPhase := .supervisor } ∧
        (if s.muxSel = .vbatt then (t.vbatt.toNat : Int) = max 0 (min 255 ((a.toNat : Int) - s.params.vOff))
          else t.vbatt = s.vbatt) ∧
        (if s.muxSel = .temp then (t.temp.toNat : Int) = max 0 (min 255 (a.toInt + 40)) else t.temp = s.temp) ∧
        (t.irq = true ↔ s.irq = true ∨ t.record ≠ s.record) ∧
        (Channel.code t.muxSel) = Channel.code s.muxSel + 1
      else t = { s with mlPhase := .supervisor })

/-! ### The environment, the wake signal, reset -/

/-- R27, R262: a flag setter of the environment writes its flag alone, and arms the line if and only if the value
changed. -/
def Obligations.EnvFlagSetterArmsOnChange : Prop :=
  ∀ (s : State) (f : EnvFlag) (b : Bool), ∃ t, runEvent (.setFlag f b) s = .next t ∧
    t = { s with status := t.status, irq := t.irq } ∧ flagOf (flagOfEnv f) t.status = b ∧
    (∀ g, g ≠ flagOfEnv f → flagOf g t.status = flagOf g s.status) ∧ modeField t.status = modeField s.status ∧
    (flagOf (flagOfEnv f) s.status = b → t = s) ∧ (flagOf (flagOfEnv f) s.status ≠ b → t.irq = true)

/-- R263, R264, R185, R322: the clock step writes the time alone and does not arm the line; the haptic report ends an
active pulse with its notification and does nothing otherwise; the wake signal changes nothing. -/
def Obligations.EnvironmentStepsWriteTheirRegisters : Prop :=
  ∀ s : State,
    (∀ v : List Byte, v.length = s.params.dtBytes → runEvent (.clockAdvance v) s = .next { s with time := v }) ∧
    (∀ ok : Bool, runEvent (.hapticDone ok) s =
      .next (if s.hapticActive = true then
        { s with hapticActive := false, out := { s.out with notify := some (if ok = true then 0x09#8 else 0x0A#8) } }
      else s)) ∧
    runEvent .wake s = .next s

/-- R360, R361: the reset input leaves every register at its reset value, from every state. Two clauses are the
model's choice: the parameters and the waiting inputs with the counter of free inputs are no registers and survive the
reset (logs 1, 2 and 3). -/
def Obligations.ResetInputResetsEverything : Prop :=
  ∀ s : State, ∃ t, runEvent .reset s = .next t ∧ AllAtReset t ∧ t.params = s.params ∧ t.events = s.events ∧
    t.freeCtr = s.freeCtr

/-- R49: what reset leaves in every register (the values of the spec's table). The parameters of this reset state are
the model's choice (log 1). -/
def Obligations.ResetStateHoldsTable : Prop :=
  AllAtReset State.reset ∧ State.reset.mode = some .sleep ∧ Memory.wf State.reset.ib = true

/-! ### The signal line, the handoff, the errors -/

/-- R326, R215 (e): the line goes from asserted to clear only in a read start or a reset. -/
def Obligations.LineClearedOnlyByReadStartOrReset : Prop :=
  ∀ s t : State, step s = .next t → s.irq = true → t.irq = false →
    (∃ c rx, nextEvent s = .bus c rx ∧ decodeBus c rx = .sor) ∨ Resets s

/-- R378, R327: a change to the status byte, the buttons byte or an analog byte always leaves the line asserted, but for a
reset. -/
def Obligations.ObservableChangeAssertsLine : Prop :=
  ∀ (s t : State) (k : Nat), step s = .next t → k < 6 → t.recordByte k ≠ s.recordByte k → t.irq = true ∨ Resets s

/-- R215 (c), R31, R100: `cmd_pending` is set only by a bus condition and cleared only by the command service or a
reset. -/
def Obligations.PendingFlagIsTheHandoff : Prop :=
  ∀ s t : State, step s = .next t →
    (s.cmdPending = false → t.cmdPending = true → ∃ c rx, nextEvent s = .bus c rx) ∧
    (s.cmdPending = true → t.cmdPending = false → InPhase s .command ∨ nextEvent s = .reset)

/-- R312, R313: `raise` counts once in its class, saturating at 255, records the cause, and writes nothing else. -/
def Obligations.RaiseCountsAndRecords : Prop :=
  ∀ (s : State) (c : Cause), ∃ t, raise c s = t ∧ SameInbound s t ∧
    (if (Cause.code c).toNat ≤ 3 then
      t = { s with busErrCnt := t.busErrCnt, busErrLast := Cause.code c } ∧
        t.busErrCnt.toNat = min (s.busErrCnt.toNat + 1) 255
    else
      t = { s with msgDropCnt := t.msgDropCnt, msgErrLast := Cause.code c } ∧
        t.msgDropCnt.toNat = min (s.msgDropCnt.toNat + 1) 255)

/-! ### Transactions and bounds -/

/-- R110, R90: the Outbound Record is the status byte, the buttons, the two axes, the voltage, the temperature and the time
bytes, in this order. R371, R140: a read of `n` bytes with no other step between returns the first `n` bytes of the record
(the whole record where `n` is more), and changes only the line, the cursor, the bus state and the ports; inside a write it
first ends the write. That no other step falls between, and the quiet ports, are the model's (logs 2, 4 and 17). -/
def Obligations.ReadTransactionReturnsRecord : Prop :=
  (∀ s : State, s.time.length = s.params.dtBytes →
    s.record = [s.status, s.buttons, s.joyX, s.joyY, s.vbatt, s.temp] ++ s.time) ∧
  ∀ (s : State) (n : Nat), ∃ t, readTransaction n s = some (s.record.take n, t) ∧
    t = { s with
      irq := false, txCur := min n s.params.srBytes, busState := .idle, cmdPending := t.cmdPending
      out := ⟨some .ack, none, none⟩ } ∧
    (t.cmdPending = true ↔ s.cmdPending = true ∨ (s.busState = .receivingCommand ∧ 1 ≤ s.rxLen))

/-- R204, R314, R387: while a command is pending a write transaction is refused as a whole, and changes nothing but the bus
state and the ports; nothing is counted. That no other step falls between, and the quiet
ports, are the model's (logs 2, 4 and 17). -/
def Obligations.PendingCommandRefusesWrites : Prop :=
  ∀ (s : State) (bs : List Byte), s.cmdPending = true →
    writeTransaction bs s = some (none, { s with busState := .idle, out := ⟨some .ack, none, none⟩ })

/-- R82, R141, R170, R171: a message written when none is pending stands in the buffer, and the command service decodes
exactly it. That no other step falls between, and the quiet
ports, are the model's (logs 2, 4 and 17). -/
def Obligations.WrittenMessageIsDecoded : Prop :=
  ∀ (s : State) (i : Instr) (m : List Byte), Invariants s → s.cmdPending = false → s.busState ≠ .receivingCommand →
    i.wf s.params.dtBytes = true → encode i = .message m →
    ∃ t, writeTransaction m s = some (some m.length, t) ∧ t.cmdPending = true ∧ t.rxLen = m.length ∧
      fetchCommand t = .ok (.ok i) ∧
      t = { s with
        ib := t.ib, rxLen := m.length, cmdPending := true, busState := .idle, out := ⟨some .ack, none, none⟩ }

/-- R386, R206, R207: of a write that goes on past the capacity the first `CAP` bytes form the command; every further byte
is refused, never stored, and counted. That no other step falls between is the model's feeding of events (logs 2, 4
and 17). -/
def Obligations.OverlongWriteKeepsFirstCapBytes : Prop :=
  ∀ (s : State) (bs : List Byte), Invariants s → s.cmdPending = false → s.busState ≠ .receivingCommand →
    s.params.cap < bs.length →
    ∃ t, feedAll (.bus 0b00010 0 :: bs.map (fun b => .bus 0b01000 b)) s = some t ∧ t.cmdPending = true ∧
      t.rxLen = s.params.cap ∧ t.busState = .idle ∧ t.out.resp = some .nack ∧
      (∀ a, Memory.read t.ib a = if a < s.params.cap then bs.getD a 0 else Memory.read s.ib a) ∧
      t.busErrCnt.toNat = min (s.busErrCnt.toNat + (bs.length - s.params.cap)) 255 ∧ t.busErrLast = 3 ∧
      t = { s with
        ib := t.ib, rxLen := t.rxLen, cmdPending := t.cmdPending, busState := t.busState, busErrCnt := t.busErrCnt
        busErrLast := t.busErrLast, out := t.out }

/-- R382: a pending command is served within four steps of the main loop, whatever its inputs. The steps are fed with no
other between (logs 2, 4 and 17). -/
def Obligations.PendingCommandServedWithinFourMainSteps : Prop :=
  ∀ (s : State) (es : List Event), s.cmdPending = true → es.length = 4 →
    (∀ e ∈ es, ∃ b a h, e = .main b a h) → ∃ k, k ≤ 4 ∧ ∃ t, feedAll (es.take k) s = some t ∧ t.cmdPending = false

/-! ### The codec and the ports -/

/-- R153, R151, R152: the laws of the voltage codec; the bit `below` of the decoder is set exactly for the code 0, which is
the code of the voltages below the floor. -/
def Obligations.VoltageCodecLaws : Prop :=
  ∀ p : Params,
    (∀ v : Int, |(decV p (encV p v)).2 - max (vFloor p) (min (vCeil p) v)| ≤ 1 ∧
      ((decV p (encV p v)).2 - max (vFloor p) (min (vCeil p) v) = 0 ↔ vFloor p ≤ v) ∧
      encV p (decV p (encV p v)).2 = encV p v) ∧
    (∀ v w : Int, v ≤ w → (encV p v).toNat ≤ (encV p w).toNat) ∧
    (∀ b c : Byte, decV p b = decV p c → b = c) ∧
    (∀ b : Byte, (decV p b).1 = true ↔ b = 0) ∧ (∀ v : Int, (decV p (encV p v)).1 = true ↔ v < vFloor p)

/-- R156, with R154 and R155: the laws of the temperature codec; the lower boundary is -40 half degrees, the upper 215. -/
def Obligations.TemperatureCodecLaws : Prop :=
  (∀ h : Int, decT (encT h) = max (-40) (min 215 h) ∧ decT (encT (decT (encT h))) = decT (encT h) ∧
    (h ≤ -40 → decT (encT h) = -40) ∧ (215 ≤ h → decT (encT h) = 215)) ∧
  (∀ h k : Int, h ≤ k → (encT h).toNat ≤ (encT k).toNat) ∧ (∀ b c : Byte, decT b = decT c → b = c)

/-- R158, R111, R112: each flag and the mode have their bits in the packed status byte, each mode its code, and the
registers are read by the same bits; the packing is exact: unpacking gives the fields back, and every byte with a legal mode
code is the packing of its fields; a reserved code is refused. -/
def Obligations.StatusPackingIsExact : Prop :=
  (∀ f : StatusFields, (packStatus f).extractLsb' 0 3 = f.mode.code ∧ (packStatus f).getLsbD 3 = f.recording ∧
    (packStatus f).getLsbD 4 = f.usb ∧ (packStatus f).getLsbD 5 = f.charging ∧
    (packStatus f).getLsbD 6 = f.lowBattery ∧ (packStatus f).getLsbD 7 = f.alarm) ∧
  (Mode.sleep.code = 0 ∧ Mode.wakeUp.code = 1 ∧ Mode.powerUp.code = 2 ∧ Mode.on.code = 3 ∧ Mode.powerDown.code = 4) ∧
  (∀ (s : State) (m : Mode), s.mode = some m ↔ s.status.extractLsb' 0 3 = m.code) ∧
  (∀ b : Byte, flagOf .recording b = b.getLsbD 3 ∧ flagOf .usb b = b.getLsbD 4 ∧ flagOf .charging b = b.getLsbD 5 ∧
    flagOf .lowBattery b = b.getLsbD 6 ∧ flagOf .alarm b = b.getLsbD 7) ∧
  (∀ f : StatusFields, unpackStatus (packStatus f) = some f) ∧
  (∀ b : Byte, (∃ f, unpackStatus b = some f ∧ packStatus f = b) ∨ (5 ≤ (modeField b).toNat ∧ unpackStatus b = none))

/-- R61, R64, R65, R66, R131: each port shows its register or its event: `bus_resp` the code of the response, `bus_tx` the
byte of a `DATA` response, the haptic request and the notification of the step. That the ports which are valid in one step
only stand in a field of State, and that `bus_tx` is absent without `DATA`, are the model's choice (log 4). -/
def Obligations.PortsShowRegisters : Prop :=
  ∀ s : State, s.ports.irq = s.irq ∧ s.ports.railEn = s.railEn ∧ s.ports.samplingEn = s.samplingEn ∧
    s.ports.brightnessOut = s.brightness ∧ s.ports.alarmDtOut = s.alarmDt ∧ s.ports.dbgBusErrCnt = s.busErrCnt ∧
    s.ports.dbgBusErrLast = s.busErrLast ∧ s.ports.dbgMsgDropCnt = s.msgDropCnt ∧ s.ports.dbgMsgErrLast = s.msgErrLast ∧
    (s.ports.muxSel = 0 ↔ s.muxSel = .joyX) ∧ (s.ports.muxSel = 1 ↔ s.muxSel = .joyY) ∧
    (s.ports.muxSel = 2 ↔ s.muxSel = .vbatt) ∧ (s.ports.muxSel = 3 ↔ s.muxSel = .temp) ∧
    (s.ports.busResp = none ↔ s.out.resp = none) ∧ (s.ports.busResp = some 0 ↔ s.out.resp = some .ack) ∧
    (s.ports.busResp = some 1 ↔ s.out.resp = some .nack) ∧
    (s.ports.busResp = some 2 ↔ ∃ b, s.out.resp = some (.data b)) ∧
    (s.ports.busResp = some 3 ↔ s.out.resp = some .complete) ∧
    (∀ b : Byte, s.ports.busTx = some b ↔ s.out.resp = some (.data b)) ∧
    s.ports.hapticReq = s.out.hapticReq ∧ s.ports.notifyOut = s.out.notify
end

