-- ==== Sys2Proof/Laws/Decode.lean ====
section
/-! SUPPORT. The decoder's small lemmas: a byte and a byte string by index, the size of each ordinal, the two rejections,
and the priority of the raw conditions. -/

namespace Sys2Proof

@[simp] theorem byteAt_zero (b : Byte) (bs : List Byte) : byteAt (b :: bs) 0 = b := rfl
@[simp] theorem byteAt_succ (b : Byte) (bs : List Byte) (k : Nat) : byteAt (b :: bs) (k + 1) = byteAt bs k := by
  simp [byteAt]
@[simp] theorem bytesAt_length (bs : List Byte) (k n : Nat) : (bytesAt bs k n).length = n := by simp [bytesAt]

/-- The `n` bytes after the first are the head of the tail (R123). -/
theorem bytesAt_cons_one (b : Byte) (bs : List Byte) {n : Nat} (h : n ≤ bs.length) :
    bytesAt (b :: bs) 1 n = bs.take n := by
  apply List.ext_getElem
  · simp [bytesAt, h]
  · intro j h1 h2
    simp only [bytesAt_length] at h1
    simp [bytesAt, byteAt, show 1 + j = j + 1 by omega, List.getElem?_eq_getElem (by omega : j < bs.length)]

/-- The size of every ordinal of the catalog (R121, R122). -/
theorem messageSize_of_known {ord : Byte} (h : ord.toNat < nOrd) (dtBytes : Nat) :
    messageSize dtBytes ord =
      some (if ord = 0x05#8 then 2 else if ord = 0x06#8 ∨ ord = 0x07#8 then 1 + dtBytes
        else if ord = 0x08#8 then 3 else 1) := by
  unfold messageSize
  rw [if_pos h]
  split
  · rfl
  · split
    · rfl
    · split <;> rfl

/-- An ordinal outside the catalog has no size (R121). -/
theorem messageSize_of_unknown {ord : Byte} (h : nOrd ≤ ord.toNat) (dtBytes : Nat) :
    messageSize dtBytes ord = none := by
  unfold messageSize
  have hn : ∀ k : Nat, k < 12 → ord ≠ BitVec.ofNat 8 k := by
    intro k hk he
    subst he
    rw [BitVec.toNat_ofNat, Nat.mod_eq_of_lt (by omega)] at h
    simp only [nOrd] at h
    omega
  rw [if_neg (hn 5 (by omega)), if_neg (by simp [hn 6 (by omega), hn 7 (by omega)]), if_neg (hn 8 (by omega)),
    if_neg (by omega)]

/-- An unrecognised ordinal is rejected by name (R171). -/
theorem decodeBuffer_unknown {dtBytes : Nat} {buf : List Byte} {len : Nat} (h : nOrd ≤ (byteAt buf 0).toNat) :
    decodeBuffer dtBytes buf len = .error .unknownOrdinal := by
  simp [decodeBuffer, validate, messageSize_of_unknown h]

/-- Where validation passes, the first byte alone selects the message (R143). -/
theorem decodeBuffer_of_valid {dtBytes : Nat} {buf : List Byte} {len : Nat} {i : Instr}
    (hv : validate dtBytes (byteAt buf 0) len = .ok ()) (hm : messageOf dtBytes buf = some i) :
    decodeBuffer dtBytes buf len = .ok i := by
  simp [decodeBuffer, hv, hm]

/-- What the decoder answers is what the first byte selects. -/
theorem decodeBuffer_ok {dtBytes : Nat} {buf : List Byte} {len : Nat} {i : Instr}
    (h : decodeBuffer dtBytes buf len = .ok i) : messageOf dtBytes buf = some i := by
  unfold decodeBuffer at h
  split at h
  · cases h
  · split at h
    · next hm => cases h; exact hm
    · cases h

/-- A message's selection is never a bus condition. -/
theorem messageOf_is_message {dtBytes : Nat} {buf : List Byte} {i : Instr} (h : messageOf dtBytes buf = some i) :
    ∃ m, encode i = .message m := by
  unfold messageOf at h
  split at h <;> first | (cases h; exact ⟨_, rfl⟩) | cases h

/-- The priority decode answers a bus condition, whatever the vector (R130). -/
theorem decodeBus_is_condition (c : BitVec 5) (rx : Byte) : ∃ v r, encode (decodeBus c rx) = .condition v r := by
  unfold decodeBus
  repeat' split
  all_goals exact ⟨_, _, rfl⟩

end Sys2Proof
end

