-- ==== Sys2Proof/Laws/Flags.lean ====
section
/-! SUPPORT. The bits of the status byte, the modes and their codes, the saturating arithmetic, the codec. -/

namespace Sys2Proof.Machine

/-- A bit after the write of a bit (R10). -/
theorem getLsbD_setBit (v : Byte) {i : Nat} (hi : i < 8) (b : Bool) (j : Nat) :
    (setBit v i b).getLsbD j = if j = i then b else v.getLsbD j := by
  by_cases hj : j < 8
  · by_cases hji : j = i
    · subst hji
      cases b <;> simp [setBit, hj, BitVec.getElem_twoPow]
    · cases b <;> simp [setBit, hj, hji, BitVec.getElem_twoPow]
  · have : j ≠ i := by omega
    rw [if_neg this, BitVec.getLsbD_of_ge _ _ (by omega), BitVec.getLsbD_of_ge _ _ (by omega)]

@[simp] theorem Flag.bit_lt (f : Flag) : Flag.bit f < 8 := by cases f <;> decide

/-- A flag read after a write of a flag: each flag has its own bit (R111). -/
theorem flagOf_setBit (f g : Flag) (v : Byte) (b : Bool) :
    flagOf g (setBit v (Flag.bit f) b) = if g = f then b else flagOf g v := by
  unfold flagOf
  rw [getLsbD_setBit v (Flag.bit_lt f)]
  cases f <;> cases g <;> simp [Flag.bit]

/-- A flag write leaves the mode field (R21). -/
@[simp] theorem modeField_setBit (f : Flag) (v : Byte) (b : Bool) :
    modeField (setBit v (Flag.bit f) b) = modeField v := by
  ext i hi
  have : i ≠ Flag.bit f := by cases f <;> simp [Flag.bit] <;> omega
  simp [modeField, getLsbD_setBit, this]

/-- A mode write writes the mode's code (R112). -/
@[simp] theorem modeField_withModeField (v : Byte) (m : Mode) : modeField (withModeField v m) = m.code := by
  have h : ∀ c : BitVec 3, modeField ((v &&& 0xF8#8) ||| c.setWidth 8) = c := by
    intro c
    ext i hi
    have : i = 0 ∨ i = 1 ∨ i = 2 := by omega
    rcases this with rfl | rfl | rfl <;> simp [modeField]
  exact h _

/-- A mode write leaves every flag (R21). -/
@[simp] theorem flagOf_withModeField (f : Flag) (v : Byte) (m : Mode) :
    flagOf f (withModeField v m) = flagOf f v := by
  cases f <;> simp [flagOf, withModeField, Flag.bit]

@[simp] theorem Mode.ofCode_code (m : Mode) : Mode.ofCode m.code = some m := by cases m <;> rfl

/-- A mode is its code (R112). -/
theorem Mode.ofCode_eq_some {c : BitVec 3} {m : Mode} : Mode.ofCode c = some m ↔ c = m.code := by
  revert c
  cases m <;> decide

/-- A state is in a mode exactly when its mode field holds the mode's code. -/
theorem State.mode_eq_some {s : State} {m : Mode} : s.mode = some m ↔ modeField s.status = m.code :=
  Mode.ofCode_eq_some

/-- The saturating increment counts up to the greatest value (R159 b, c). -/
theorem satInc_toNat {n : Nat} (v : BitVec n) : (satInc v).toNat = min (v.toNat + 1) (2 ^ n - 1) := by
  unfold satInc
  have hv := v.isLt
  split
  · next h =>
    have hn : n ≠ 0 := by rintro rfl; omega
    have h1 : 1 < 2 ^ n := Nat.one_lt_two_pow hn
    simp only [BitVec.toNat_add, BitVec.toNat_ofNat, Nat.mod_eq_of_lt h1]
    rw [Nat.mod_eq_of_lt (by omega)]
    omega
  · omega

/-- The decrement stops at 0 (R159 d). -/
theorem dec0_toNat {n : Nat} (v : BitVec n) : (dec0 v).toNat = v.toNat - 1 := by
  unfold dec0
  split
  · next h => simp [h]
  · next h =>
    have hv := v.isLt
    have hpos : 0 < v.toNat := by
      rcases Nat.eq_zero_or_pos v.toNat with h0 | h0
      · exact absurd (BitVec.eq_of_toNat_eq (by simpa using h0)) h
      · exact h0
    have hn : n ≠ 0 := by
      rintro rfl
      simp at hv
      omega
    have h1 : 1 < 2 ^ n := Nat.one_lt_two_pow hn
    rw [BitVec.toNat_sub, BitVec.toNat_ofNat, Nat.mod_eq_of_lt h1]
    rw [show 2 ^ n - 1 + v.toNat = (v.toNat - 1) + 2 ^ n by omega, Nat.add_mod_right, Nat.mod_eq_of_lt (by omega)]

/-- A clamped value lies between the bounds (R11). -/
theorem clamp_range (v : Int) {lo hi : Int} (h : lo ≤ hi) : lo ≤ clamp v lo hi ∧ clamp v lo hi ≤ hi := by
  unfold clamp
  split <;> [skip; split] <;> omega

/-- A clamped value as a byte is that value. -/
theorem toNat_ofInt_clamp (v : Int) : ((BitVec.ofInt 8 (clamp v 0 255)).toNat : Int) = clamp v 0 255 := by
  obtain ⟨h0, h1⟩ := clamp_range v (lo := 0) (hi := 255) (by omega)
  rw [BitVec.toNat_ofInt]
  have : clamp v 0 255 % ((2 ^ 8 : Nat) : Int) = clamp v 0 255 := Int.emod_eq_of_lt h0 (by norm_num; omega)
  rw [this, Int.toNat_of_nonneg h0]

/-- The voltage code as a number (R150). -/
theorem encV_toNat (p : Params) (v : Int) : ((encV p v).toNat : Int) = clamp (v - p.vOff) 0 255 :=
  toNat_ofInt_clamp _

/-- The temperature code as a number (R154). -/
theorem encT_toNat (h : Int) : ((encT h).toNat : Int) = clamp (h + 40) 0 255 := toNat_ofInt_clamp _

end Sys2Proof.Machine
end

