-- ==== Sys2Proof/Laws/Memory.lean ====
section
/-! SUPPORT. The laws of the inbound space: a read after a write, the canonical form, the bound. -/

namespace Sys2Proof.Machine

@[simp] theorem cellOf_read (a b : Nat) (v : Byte) (m : Memory) (h : Memory.read m a = unlistedByte) :
    Memory.read (cellOf a v ++ m) b = if b = a then v else Memory.read m b := by
  by_cases hb : b = a
  · subst hb
    by_cases hv : v = unlistedByte <;> simp [cellOf, hv, Memory.read, h]
  · by_cases hv : v = unlistedByte <;> simp [cellOf, hv, Memory.read, hb]

theorem Memory.wf_cons {k : Nat} {v : Byte} {m : Memory} :
    Memory.wf ((k, v) :: m) = true ↔ v ≠ unlistedByte ∧ (∀ c ∈ m, k < c.1) ∧ Memory.wf m = true := by
  simp [Memory.wf, and_assoc]

/-- Below the first address nothing is listed. -/
theorem Memory.read_of_lt {m : Memory} {a : Nat} (h : ∀ c ∈ m, a < c.1) : Memory.read m a = unlistedByte := by
  induction m with
  | nil => rfl
  | cons c rest ih =>
    have hc := h c (by simp)
    have hne : a ≠ c.1 := by omega
    simp only [Memory.read, if_neg hne]
    exact ih fun d hd => h d (by simp [hd])

/-- A byte read after a write of one byte. -/
theorem Memory.read_write {m : Memory} (h : Memory.wf m = true) (a b : Nat) (v : Byte) :
    Memory.read (Memory.write m a v) b = if b = a then v else Memory.read m b := by
  induction m with
  | nil =>
    have := cellOf_read a b v [] rfl
    simpa [Memory.write] using this
  | cons c rest ih =>
    obtain ⟨k, w⟩ := c
    obtain ⟨_, hk, hrest⟩ := Memory.wf_cons.mp h
    simp only [Memory.write]
    split
    · next hlt =>
      refine cellOf_read a b v _ (Memory.read_of_lt ?_)
      intro c hc
      rcases List.mem_cons.mp hc with rfl | hc
      · exact hlt
      · exact lt_trans hlt (hk c hc)
    · split
      · next hnlt heq =>
        subst heq
        rw [cellOf_read _ _ _ _ (Memory.read_of_lt hk)]
        simp only [Memory.read]
        split <;> rfl
      · next hne =>
        simp only [Memory.read, ih hrest]
        by_cases hbk : b = k
        · simp [hbk, show k ≠ a by omega]
        · simp [hbk]

/-- A listed address after a write was listed before, or is the written one. -/
theorem Memory.mem_write {m : Memory} {a : Nat} {v : Byte} {c : Host.Cell} (h : c ∈ Memory.write m a v) :
    c ∈ m ∨ c = (a, v) := by
  induction m with
  | nil =>
    simp only [Memory.write, cellOf] at h
    split at h <;> simp_all
  | cons d rest ih =>
    obtain ⟨k, w⟩ := d
    simp only [Memory.write, cellOf] at h
    split at h
    · split at h <;> simp at h ⊢ <;> tauto
    · split at h
      · split at h <;> simp at h ⊢ <;> tauto
      · rcases List.mem_cons.mp h with h | h
        · simp [h]
        · rcases ih h with h | h <;> simp [h]

/-- A write of one byte keeps the canonical form. -/
theorem Memory.wf_write {m : Memory} (h : Memory.wf m = true) (a : Nat) (v : Byte) :
    Memory.wf (Memory.write m a v) = true := by
  induction m with
  | nil =>
    simp only [Memory.write, cellOf]
    split
    · rfl
    · next hv => simpa [Memory.wf] using hv
  | cons c rest ih =>
    obtain ⟨k, w⟩ := c
    obtain ⟨hw, hk, hrest⟩ := Memory.wf_cons.mp h
    simp only [Memory.write]
    split
    · next hlt =>
      simp only [cellOf]
      split
      · exact h
      · next hv =>
        refine Memory.wf_cons.mpr ⟨hv, ?_, h⟩
        intro c hc
        rcases List.mem_cons.mp hc with rfl | hc
        · exact hlt
        · exact lt_trans hlt (hk c hc)
    · split
      · next heq =>
        subst heq
        simp only [cellOf]
        split
        · exact hrest
        · next hv => exact Memory.wf_cons.mpr ⟨hv, hk, hrest⟩
      · refine Memory.wf_cons.mpr ⟨hw, ?_, ih hrest⟩
        intro c hc
        rcases Memory.mem_write hc with hc | rfl
        · exact hk c hc
        · show k < a
          omega

/-- A write below a bound keeps the bound. -/
theorem Memory.below_write {m : Memory} {n a : Nat} (h : Memory.below n m = true) (ha : a < n) (v : Byte) :
    Memory.below n (Memory.write m a v) = true := by
  simp only [Memory.below, List.all_eq_true, decide_eq_true_eq] at h ⊢
  intro c hc
  rcases Memory.mem_write hc with hc | rfl
  · exact h c hc
  · exact ha

/-- A write of a list of bytes keeps the canonical form. -/
theorem Memory.wf_writeN {m : Memory} (h : Memory.wf m = true) (a : Nat) (bs : List Byte) :
    Memory.wf (Memory.writeN m a bs) = true := by
  induction bs generalizing m a with
  | nil => exact h
  | cons b bs ih => exact ih (Memory.wf_write h a b) (a + 1)

/-- A write of a list of bytes that ends below a bound keeps the bound. -/
theorem Memory.below_writeN {m : Memory} {n a : Nat} {bs : List Byte} (h : Memory.below n m = true)
    (hb : a + bs.length ≤ n) : Memory.below n (Memory.writeN m a bs) = true := by
  induction bs generalizing m a with
  | nil => exact h
  | cons b bs ih =>
    simp only [List.length_cons] at hb
    exact ih (Memory.below_write h (by omega) b) (by omega)

/-- A byte read after a write of a list of bytes. -/
theorem Memory.read_writeN {m : Memory} (h : Memory.wf m = true) (a b : Nat) (bs : List Byte) :
    Memory.read (Memory.writeN m a bs) b =
      if a ≤ b ∧ b < a + bs.length then bs.getD (b - a) 0x00#8 else Memory.read m b := by
  induction bs generalizing m a with
  | nil => simp [Memory.writeN]
  | cons c bs ih =>
    rw [Memory.writeN, ih (Memory.wf_write h a c), Memory.read_write h]
    simp only [List.length_cons]
    rcases lt_trichotomy b a with hlt | heq | hgt
    · rw [if_neg (by omega), if_neg (by omega), if_neg (by omega)]
    · subst heq
      rw [if_neg (by omega), if_pos rfl, if_pos (by omega)]
      simp
    · by_cases hin : b < a + (bs.length + 1)
      · rw [if_pos (by omega), if_pos (by omega), show b - a = (b - (a + 1)) + 1 by omega, List.getD_cons_succ]
      · rw [if_neg (by omega), if_neg (by omega), if_neg (by omega)]

@[simp] theorem Memory.readN_length (m : Memory) (a n : Nat) : (Memory.readN m a n).length = n := by
  simp [Memory.readN]

/-- What `MemRead` answers inside the inbound space (R11). -/
theorem memRead_ok {s : State} {a n : Nat} (h : a + n ≤ s.params.cap) :
    memRead s a n = .ok (Memory.readN s.ib a n) := if_pos h

/-- What `MemRead` answers outside it. -/
theorem memRead_error {s : State} {a n : Nat} (h : s.params.cap < a + n) :
    memRead s a n = .error (.inboundOutOfRange a n) := if_neg (by omega)

/-- What `MemWrite` answers inside the inbound space (R11). -/
theorem memWrite_ok {s : State} {a : Nat} {v : List Byte} (h : a + v.length ≤ s.params.cap) :
    memWrite s a v = .ok { s with ib := Memory.writeN s.ib a v } := if_pos h

/-- What `MemWrite` answers outside it. -/
theorem memWrite_error {s : State} {a : Nat} {v : List Byte} (h : s.params.cap < a + v.length) :
    memWrite s a v = .error (.inboundOutOfRange a v.length) := if_neg (by omega)

/-- Everything `MemWrite` can do. -/
theorem memWrite_cases {s t : State} {a : Nat} {v : List Byte} (h : memWrite s a v = .ok t) :
    a + v.length ≤ s.params.cap ∧ t = { s with ib := Memory.writeN s.ib a v } := by
  unfold memWrite at h
  split at h
  · next hle => exact ⟨hle, by cases h; rfl⟩
  · cases h

end Sys2Proof.Machine
end

