-- ==== Sys2Proof/Laws/State.lean ====
section
/-! SUPPORT. For each elementary update of a state, one lemma per field: what the update makes of it. Every one is true by
`rfl`; no proof unfolds such an update again. -/

namespace Sys2Proof.Machine

/-! `arm()` writes `irq` alone (R325). -/

@[simp] theorem arm_params (s : State) : (arm s).params = s.params := rfl
@[simp] theorem arm_status (s : State) : (arm s).status = s.status := rfl
@[simp] theorem arm_buttons (s : State) : (arm s).buttons = s.buttons := rfl
@[simp] theorem arm_joyX (s : State) : (arm s).joyX = s.joyX := rfl
@[simp] theorem arm_joyY (s : State) : (arm s).joyY = s.joyY := rfl
@[simp] theorem arm_vbatt (s : State) : (arm s).vbatt = s.vbatt := rfl
@[simp] theorem arm_temp (s : State) : (arm s).temp = s.temp := rfl
@[simp] theorem arm_time (s : State) : (arm s).time = s.time := rfl
@[simp] theorem arm_ib (s : State) : (arm s).ib = s.ib := rfl
@[simp] theorem arm_rxLen (s : State) : (arm s).rxLen = s.rxLen := rfl
@[simp] theorem arm_cmdPending (s : State) : (arm s).cmdPending = s.cmdPending := rfl
@[simp] theorem arm_busState (s : State) : (arm s).busState = s.busState := rfl
@[simp] theorem arm_txCur (s : State) : (arm s).txCur = s.txCur := rfl
@[simp] theorem arm_irq (s : State) : (arm s).irq = true := rfl
@[simp] theorem arm_btnTimer (s : State) : (arm s).btnTimer = s.btnTimer := rfl
@[simp] theorem arm_pwrPrev (s : State) : (arm s).pwrPrev = s.pwrPrev := rfl
@[simp] theorem arm_pwrTrack (s : State) : (arm s).pwrTrack = s.pwrTrack := rfl
@[simp] theorem arm_confirmed (s : State) : (arm s).confirmed = s.confirmed := rfl
@[simp] theorem arm_holdCnt (s : State) : (arm s).holdCnt = s.holdCnt := rfl
@[simp] theorem arm_wakeTo (s : State) : (arm s).wakeTo = s.wakeTo := rfl
@[simp] theorem arm_muxSel (s : State) : (arm s).muxSel = s.muxSel := rfl
@[simp] theorem arm_muxDiv (s : State) : (arm s).muxDiv = s.muxDiv := rfl
@[simp] theorem arm_sampleDue (s : State) : (arm s).sampleDue = s.sampleDue := rfl
@[simp] theorem arm_railEn (s : State) : (arm s).railEn = s.railEn := rfl
@[simp] theorem arm_samplingEn (s : State) : (arm s).samplingEn = s.samplingEn := rfl
@[simp] theorem arm_mlPhase (s : State) : (arm s).mlPhase = s.mlPhase := rfl
@[simp] theorem arm_brightness (s : State) : (arm s).brightness = s.brightness := rfl
@[simp] theorem arm_alarmDt (s : State) : (arm s).alarmDt = s.alarmDt := rfl
@[simp] theorem arm_hapticActive (s : State) : (arm s).hapticActive = s.hapticActive := rfl
@[simp] theorem arm_busErrCnt (s : State) : (arm s).busErrCnt = s.busErrCnt := rfl
@[simp] theorem arm_busErrLast (s : State) : (arm s).busErrLast = s.busErrLast := rfl
@[simp] theorem arm_msgDropCnt (s : State) : (arm s).msgDropCnt = s.msgDropCnt := rfl
@[simp] theorem arm_msgErrLast (s : State) : (arm s).msgErrLast = s.msgErrLast := rfl
@[simp] theorem arm_out (s : State) : (arm s).out = s.out := rfl
@[simp] theorem arm_events (s : State) : (arm s).events = s.events := rfl
@[simp] theorem arm_freeCtr (s : State) : (arm s).freeCtr = s.freeCtr := rfl

/-! `respond(r)` drives the response port alone (R131). -/

@[simp] theorem respond_params (r : Response) (s : State) : (respond r s).params = s.params := rfl
@[simp] theorem respond_status (r : Response) (s : State) : (respond r s).status = s.status := rfl
@[simp] theorem respond_buttons (r : Response) (s : State) : (respond r s).buttons = s.buttons := rfl
@[simp] theorem respond_joyX (r : Response) (s : State) : (respond r s).joyX = s.joyX := rfl
@[simp] theorem respond_joyY (r : Response) (s : State) : (respond r s).joyY = s.joyY := rfl
@[simp] theorem respond_vbatt (r : Response) (s : State) : (respond r s).vbatt = s.vbatt := rfl
@[simp] theorem respond_temp (r : Response) (s : State) : (respond r s).temp = s.temp := rfl
@[simp] theorem respond_time (r : Response) (s : State) : (respond r s).time = s.time := rfl
@[simp] theorem respond_ib (r : Response) (s : State) : (respond r s).ib = s.ib := rfl
@[simp] theorem respond_rxLen (r : Response) (s : State) : (respond r s).rxLen = s.rxLen := rfl
@[simp] theorem respond_cmdPending (r : Response) (s : State) : (respond r s).cmdPending = s.cmdPending := rfl
@[simp] theorem respond_busState (r : Response) (s : State) : (respond r s).busState = s.busState := rfl
@[simp] theorem respond_txCur (r : Response) (s : State) : (respond r s).txCur = s.txCur := rfl
@[simp] theorem respond_irq (r : Response) (s : State) : (respond r s).irq = s.irq := rfl
@[simp] theorem respond_btnTimer (r : Response) (s : State) : (respond r s).btnTimer = s.btnTimer := rfl
@[simp] theorem respond_pwrPrev (r : Response) (s : State) : (respond r s).pwrPrev = s.pwrPrev := rfl
@[simp] theorem respond_pwrTrack (r : Response) (s : State) : (respond r s).pwrTrack = s.pwrTrack := rfl
@[simp] theorem respond_confirmed (r : Response) (s : State) : (respond r s).confirmed = s.confirmed := rfl
@[simp] theorem respond_holdCnt (r : Response) (s : State) : (respond r s).holdCnt = s.holdCnt := rfl
@[simp] theorem respond_wakeTo (r : Response) (s : State) : (respond r s).wakeTo = s.wakeTo := rfl
@[simp] theorem respond_muxSel (r : Response) (s : State) : (respond r s).muxSel = s.muxSel := rfl
@[simp] theorem respond_muxDiv (r : Response) (s : State) : (respond r s).muxDiv = s.muxDiv := rfl
@[simp] theorem respond_sampleDue (r : Response) (s : State) : (respond r s).sampleDue = s.sampleDue := rfl
@[simp] theorem respond_railEn (r : Response) (s : State) : (respond r s).railEn = s.railEn := rfl
@[simp] theorem respond_samplingEn (r : Response) (s : State) : (respond r s).samplingEn = s.samplingEn := rfl
@[simp] theorem respond_mlPhase (r : Response) (s : State) : (respond r s).mlPhase = s.mlPhase := rfl
@[simp] theorem respond_brightness (r : Response) (s : State) : (respond r s).brightness = s.brightness := rfl
@[simp] theorem respond_alarmDt (r : Response) (s : State) : (respond r s).alarmDt = s.alarmDt := rfl
@[simp] theorem respond_hapticActive (r : Response) (s : State) : (respond r s).hapticActive = s.hapticActive := rfl
@[simp] theorem respond_busErrCnt (r : Response) (s : State) : (respond r s).busErrCnt = s.busErrCnt := rfl
@[simp] theorem respond_busErrLast (r : Response) (s : State) : (respond r s).busErrLast = s.busErrLast := rfl
@[simp] theorem respond_msgDropCnt (r : Response) (s : State) : (respond r s).msgDropCnt = s.msgDropCnt := rfl
@[simp] theorem respond_msgErrLast (r : Response) (s : State) : (respond r s).msgErrLast = s.msgErrLast := rfl
@[simp] theorem respond_out (r : Response) (s : State) : (respond r s).out = { s.out with resp := some r } := rfl
@[simp] theorem respond_events (r : Response) (s : State) : (respond r s).events = s.events := rfl
@[simp] theorem respond_freeCtr (r : Response) (s : State) : (respond r s).freeCtr = s.freeCtr := rfl

/-! The start of a haptic pulse (R181, R265). -/

@[simp] theorem startHaptic_params (i d : Byte) (s : State) : (startHaptic i d s).params = s.params := rfl
@[simp] theorem startHaptic_status (i d : Byte) (s : State) : (startHaptic i d s).status = s.status := rfl
@[simp] theorem startHaptic_buttons (i d : Byte) (s : State) : (startHaptic i d s).buttons = s.buttons := rfl
@[simp] theorem startHaptic_joyX (i d : Byte) (s : State) : (startHaptic i d s).joyX = s.joyX := rfl
@[simp] theorem startHaptic_joyY (i d : Byte) (s : State) : (startHaptic i d s).joyY = s.joyY := rfl
@[simp] theorem startHaptic_vbatt (i d : Byte) (s : State) : (startHaptic i d s).vbatt = s.vbatt := rfl
@[simp] theorem startHaptic_temp (i d : Byte) (s : State) : (startHaptic i d s).temp = s.temp := rfl
@[simp] theorem startHaptic_time (i d : Byte) (s : State) : (startHaptic i d s).time = s.time := rfl
@[simp] theorem startHaptic_ib (i d : Byte) (s : State) : (startHaptic i d s).ib = s.ib := rfl
@[simp] theorem startHaptic_rxLen (i d : Byte) (s : State) : (startHaptic i d s).rxLen = s.rxLen := rfl
@[simp] theorem startHaptic_cmdPending (i d : Byte) (s : State) : (startHaptic i d s).cmdPending = s.cmdPending := rfl
@[simp] theorem startHaptic_busState (i d : Byte) (s : State) : (startHaptic i d s).busState = s.busState := rfl
@[simp] theorem startHaptic_txCur (i d : Byte) (s : State) : (startHaptic i d s).txCur = s.txCur := rfl
@[simp] theorem startHaptic_irq (i d : Byte) (s : State) : (startHaptic i d s).irq = s.irq := rfl
@[simp] theorem startHaptic_btnTimer (i d : Byte) (s : State) : (startHaptic i d s).btnTimer = s.btnTimer := rfl
@[simp] theorem startHaptic_pwrPrev (i d : Byte) (s : State) : (startHaptic i d s).pwrPrev = s.pwrPrev := rfl
@[simp] theorem startHaptic_pwrTrack (i d : Byte) (s : State) : (startHaptic i d s).pwrTrack = s.pwrTrack := rfl
@[simp] theorem startHaptic_confirmed (i d : Byte) (s : State) : (startHaptic i d s).confirmed = s.confirmed := rfl
@[simp] theorem startHaptic_holdCnt (i d : Byte) (s : State) : (startHaptic i d s).holdCnt = s.holdCnt := rfl
@[simp] theorem startHaptic_wakeTo (i d : Byte) (s : State) : (startHaptic i d s).wakeTo = s.wakeTo := rfl
@[simp] theorem startHaptic_muxSel (i d : Byte) (s : State) : (startHaptic i d s).muxSel = s.muxSel := rfl
@[simp] theorem startHaptic_muxDiv (i d : Byte) (s : State) : (startHaptic i d s).muxDiv = s.muxDiv := rfl
@[simp] theorem startHaptic_sampleDue (i d : Byte) (s : State) : (startHaptic i d s).sampleDue = s.sampleDue := rfl
@[simp] theorem startHaptic_railEn (i d : Byte) (s : State) : (startHaptic i d s).railEn = s.railEn := rfl
@[simp] theorem startHaptic_samplingEn (i d : Byte) (s : State) : (startHaptic i d s).samplingEn = s.samplingEn := rfl
@[simp] theorem startHaptic_mlPhase (i d : Byte) (s : State) : (startHaptic i d s).mlPhase = s.mlPhase := rfl
@[simp] theorem startHaptic_brightness (i d : Byte) (s : State) : (startHaptic i d s).brightness = s.brightness := rfl
@[simp] theorem startHaptic_alarmDt (i d : Byte) (s : State) : (startHaptic i d s).alarmDt = s.alarmDt := rfl
@[simp] theorem startHaptic_hapticActive (i d : Byte) (s : State) : (startHaptic i d s).hapticActive = true := rfl
@[simp] theorem startHaptic_busErrCnt (i d : Byte) (s : State) : (startHaptic i d s).busErrCnt = s.busErrCnt := rfl
@[simp] theorem startHaptic_busErrLast (i d : Byte) (s : State) : (startHaptic i d s).busErrLast = s.busErrLast := rfl
@[simp] theorem startHaptic_msgDropCnt (i d : Byte) (s : State) : (startHaptic i d s).msgDropCnt = s.msgDropCnt := rfl
@[simp] theorem startHaptic_msgErrLast (i d : Byte) (s : State) : (startHaptic i d s).msgErrLast = s.msgErrLast := rfl
@[simp] theorem startHaptic_out (i d : Byte) (s : State) : (startHaptic i d s).out = { s.out with hapticReq := some (i, d) } := rfl
@[simp] theorem startHaptic_events (i d : Byte) (s : State) : (startHaptic i d s).events = s.events := rfl
@[simp] theorem startHaptic_freeCtr (i d : Byte) (s : State) : (startHaptic i d s).freeCtr = s.freeCtr := rfl

/-! A notification drives its port alone (R185). -/

@[simp] theorem notify_params (o : Byte) (s : State) : (notify o s).params = s.params := rfl
@[simp] theorem notify_status (o : Byte) (s : State) : (notify o s).status = s.status := rfl
@[simp] theorem notify_buttons (o : Byte) (s : State) : (notify o s).buttons = s.buttons := rfl
@[simp] theorem notify_joyX (o : Byte) (s : State) : (notify o s).joyX = s.joyX := rfl
@[simp] theorem notify_joyY (o : Byte) (s : State) : (notify o s).joyY = s.joyY := rfl
@[simp] theorem notify_vbatt (o : Byte) (s : State) : (notify o s).vbatt = s.vbatt := rfl
@[simp] theorem notify_temp (o : Byte) (s : State) : (notify o s).temp = s.temp := rfl
@[simp] theorem notify_time (o : Byte) (s : State) : (notify o s).time = s.time := rfl
@[simp] theorem notify_ib (o : Byte) (s : State) : (notify o s).ib = s.ib := rfl
@[simp] theorem notify_rxLen (o : Byte) (s : State) : (notify o s).rxLen = s.rxLen := rfl
@[simp] theorem notify_cmdPending (o : Byte) (s : State) : (notify o s).cmdPending = s.cmdPending := rfl
@[simp] theorem notify_busState (o : Byte) (s : State) : (notify o s).busState = s.busState := rfl
@[simp] theorem notify_txCur (o : Byte) (s : State) : (notify o s).txCur = s.txCur := rfl
@[simp] theorem notify_irq (o : Byte) (s : State) : (notify o s).irq = s.irq := rfl
@[simp] theorem notify_btnTimer (o : Byte) (s : State) : (notify o s).btnTimer = s.btnTimer := rfl
@[simp] theorem notify_pwrPrev (o : Byte) (s : State) : (notify o s).pwrPrev = s.pwrPrev := rfl
@[simp] theorem notify_pwrTrack (o : Byte) (s : State) : (notify o s).pwrTrack = s.pwrTrack := rfl
@[simp] theorem notify_confirmed (o : Byte) (s : State) : (notify o s).confirmed = s.confirmed := rfl
@[simp] theorem notify_holdCnt (o : Byte) (s : State) : (notify o s).holdCnt = s.holdCnt := rfl
@[simp] theorem notify_wakeTo (o : Byte) (s : State) : (notify o s).wakeTo = s.wakeTo := rfl
@[simp] theorem notify_muxSel (o : Byte) (s : State) : (notify o s).muxSel = s.muxSel := rfl
@[simp] theorem notify_muxDiv (o : Byte) (s : State) : (notify o s).muxDiv = s.muxDiv := rfl
@[simp] theorem notify_sampleDue (o : Byte) (s : State) : (notify o s).sampleDue = s.sampleDue := rfl
@[simp] theorem notify_railEn (o : Byte) (s : State) : (notify o s).railEn = s.railEn := rfl
@[simp] theorem notify_samplingEn (o : Byte) (s : State) : (notify o s).samplingEn = s.samplingEn := rfl
@[simp] theorem notify_mlPhase (o : Byte) (s : State) : (notify o s).mlPhase = s.mlPhase := rfl
@[simp] theorem notify_brightness (o : Byte) (s : State) : (notify o s).brightness = s.brightness := rfl
@[simp] theorem notify_alarmDt (o : Byte) (s : State) : (notify o s).alarmDt = s.alarmDt := rfl
@[simp] theorem notify_hapticActive (o : Byte) (s : State) : (notify o s).hapticActive = s.hapticActive := rfl
@[simp] theorem notify_busErrCnt (o : Byte) (s : State) : (notify o s).busErrCnt = s.busErrCnt := rfl
@[simp] theorem notify_busErrLast (o : Byte) (s : State) : (notify o s).busErrLast = s.busErrLast := rfl
@[simp] theorem notify_msgDropCnt (o : Byte) (s : State) : (notify o s).msgDropCnt = s.msgDropCnt := rfl
@[simp] theorem notify_msgErrLast (o : Byte) (s : State) : (notify o s).msgErrLast = s.msgErrLast := rfl
@[simp] theorem notify_out (o : Byte) (s : State) : (notify o s).out = { s.out with notify := some o } := rfl
@[simp] theorem notify_events (o : Byte) (s : State) : (notify o s).events = s.events := rfl
@[simp] theorem notify_freeCtr (o : Byte) (s : State) : (notify o s).freeCtr = s.freeCtr := rfl

/-! A date-time write (R179, R263). -/

@[simp] theorem writeTime_params (v : List Byte) (s : State) : (writeTime v s).params = s.params := rfl
@[simp] theorem writeTime_status (v : List Byte) (s : State) : (writeTime v s).status = s.status := rfl
@[simp] theorem writeTime_buttons (v : List Byte) (s : State) : (writeTime v s).buttons = s.buttons := rfl
@[simp] theorem writeTime_joyX (v : List Byte) (s : State) : (writeTime v s).joyX = s.joyX := rfl
@[simp] theorem writeTime_joyY (v : List Byte) (s : State) : (writeTime v s).joyY = s.joyY := rfl
@[simp] theorem writeTime_vbatt (v : List Byte) (s : State) : (writeTime v s).vbatt = s.vbatt := rfl
@[simp] theorem writeTime_temp (v : List Byte) (s : State) : (writeTime v s).temp = s.temp := rfl
@[simp] theorem writeTime_time (v : List Byte) (s : State) : (writeTime v s).time = fitBytes s.params.dtBytes v := rfl
@[simp] theorem writeTime_ib (v : List Byte) (s : State) : (writeTime v s).ib = s.ib := rfl
@[simp] theorem writeTime_rxLen (v : List Byte) (s : State) : (writeTime v s).rxLen = s.rxLen := rfl
@[simp] theorem writeTime_cmdPending (v : List Byte) (s : State) : (writeTime v s).cmdPending = s.cmdPending := rfl
@[simp] theorem writeTime_busState (v : List Byte) (s : State) : (writeTime v s).busState = s.busState := rfl
@[simp] theorem writeTime_txCur (v : List Byte) (s : State) : (writeTime v s).txCur = s.txCur := rfl
@[simp] theorem writeTime_irq (v : List Byte) (s : State) : (writeTime v s).irq = s.irq := rfl
@[simp] theorem writeTime_btnTimer (v : List Byte) (s : State) : (writeTime v s).btnTimer = s.btnTimer := rfl
@[simp] theorem writeTime_pwrPrev (v : List Byte) (s : State) : (writeTime v s).pwrPrev = s.pwrPrev := rfl
@[simp] theorem writeTime_pwrTrack (v : List Byte) (s : State) : (writeTime v s).pwrTrack = s.pwrTrack := rfl
@[simp] theorem writeTime_confirmed (v : List Byte) (s : State) : (writeTime v s).confirmed = s.confirmed := rfl
@[simp] theorem writeTime_holdCnt (v : List Byte) (s : State) : (writeTime v s).holdCnt = s.holdCnt := rfl
@[simp] theorem writeTime_wakeTo (v : List Byte) (s : State) : (writeTime v s).wakeTo = s.wakeTo := rfl
@[simp] theorem writeTime_muxSel (v : List Byte) (s : State) : (writeTime v s).muxSel = s.muxSel := rfl
@[simp] theorem writeTime_muxDiv (v : List Byte) (s : State) : (writeTime v s).muxDiv = s.muxDiv := rfl
@[simp] theorem writeTime_sampleDue (v : List Byte) (s : State) : (writeTime v s).sampleDue = s.sampleDue := rfl
@[simp] theorem writeTime_railEn (v : List Byte) (s : State) : (writeTime v s).railEn = s.railEn := rfl
@[simp] theorem writeTime_samplingEn (v : List Byte) (s : State) : (writeTime v s).samplingEn = s.samplingEn := rfl
@[simp] theorem writeTime_mlPhase (v : List Byte) (s : State) : (writeTime v s).mlPhase = s.mlPhase := rfl
@[simp] theorem writeTime_brightness (v : List Byte) (s : State) : (writeTime v s).brightness = s.brightness := rfl
@[simp] theorem writeTime_alarmDt (v : List Byte) (s : State) : (writeTime v s).alarmDt = s.alarmDt := rfl
@[simp] theorem writeTime_hapticActive (v : List Byte) (s : State) : (writeTime v s).hapticActive = s.hapticActive := rfl
@[simp] theorem writeTime_busErrCnt (v : List Byte) (s : State) : (writeTime v s).busErrCnt = s.busErrCnt := rfl
@[simp] theorem writeTime_busErrLast (v : List Byte) (s : State) : (writeTime v s).busErrLast = s.busErrLast := rfl
@[simp] theorem writeTime_msgDropCnt (v : List Byte) (s : State) : (writeTime v s).msgDropCnt = s.msgDropCnt := rfl
@[simp] theorem writeTime_msgErrLast (v : List Byte) (s : State) : (writeTime v s).msgErrLast = s.msgErrLast := rfl
@[simp] theorem writeTime_out (v : List Byte) (s : State) : (writeTime v s).out = s.out := rfl
@[simp] theorem writeTime_events (v : List Byte) (s : State) : (writeTime v s).events = s.events := rfl
@[simp] theorem writeTime_freeCtr (v : List Byte) (s : State) : (writeTime v s).freeCtr = s.freeCtr := rfl

/-! An alarm write (R180). -/

@[simp] theorem writeAlarm_params (v : List Byte) (s : State) : (writeAlarm v s).params = s.params := rfl
@[simp] theorem writeAlarm_status (v : List Byte) (s : State) : (writeAlarm v s).status = s.status := rfl
@[simp] theorem writeAlarm_buttons (v : List Byte) (s : State) : (writeAlarm v s).buttons = s.buttons := rfl
@[simp] theorem writeAlarm_joyX (v : List Byte) (s : State) : (writeAlarm v s).joyX = s.joyX := rfl
@[simp] theorem writeAlarm_joyY (v : List Byte) (s : State) : (writeAlarm v s).joyY = s.joyY := rfl
@[simp] theorem writeAlarm_vbatt (v : List Byte) (s : State) : (writeAlarm v s).vbatt = s.vbatt := rfl
@[simp] theorem writeAlarm_temp (v : List Byte) (s : State) : (writeAlarm v s).temp = s.temp := rfl
@[simp] theorem writeAlarm_time (v : List Byte) (s : State) : (writeAlarm v s).time = s.time := rfl
@[simp] theorem writeAlarm_ib (v : List Byte) (s : State) : (writeAlarm v s).ib = s.ib := rfl
@[simp] theorem writeAlarm_rxLen (v : List Byte) (s : State) : (writeAlarm v s).rxLen = s.rxLen := rfl
@[simp] theorem writeAlarm_cmdPending (v : List Byte) (s : State) : (writeAlarm v s).cmdPending = s.cmdPending := rfl
@[simp] theorem writeAlarm_busState (v : List Byte) (s : State) : (writeAlarm v s).busState = s.busState := rfl
@[simp] theorem writeAlarm_txCur (v : List Byte) (s : State) : (writeAlarm v s).txCur = s.txCur := rfl
@[simp] theorem writeAlarm_irq (v : List Byte) (s : State) : (writeAlarm v s).irq = s.irq := rfl
@[simp] theorem writeAlarm_btnTimer (v : List Byte) (s : State) : (writeAlarm v s).btnTimer = s.btnTimer := rfl
@[simp] theorem writeAlarm_pwrPrev (v : List Byte) (s : State) : (writeAlarm v s).pwrPrev = s.pwrPrev := rfl
@[simp] theorem writeAlarm_pwrTrack (v : List Byte) (s : State) : (writeAlarm v s).pwrTrack = s.pwrTrack := rfl
@[simp] theorem writeAlarm_confirmed (v : List Byte) (s : State) : (writeAlarm v s).confirmed = s.confirmed := rfl
@[simp] theorem writeAlarm_holdCnt (v : List Byte) (s : State) : (writeAlarm v s).holdCnt = s.holdCnt := rfl
@[simp] theorem writeAlarm_wakeTo (v : List Byte) (s : State) : (writeAlarm v s).wakeTo = s.wakeTo := rfl
@[simp] theorem writeAlarm_muxSel (v : List Byte) (s : State) : (writeAlarm v s).muxSel = s.muxSel := rfl
@[simp] theorem writeAlarm_muxDiv (v : List Byte) (s : State) : (writeAlarm v s).muxDiv = s.muxDiv := rfl
@[simp] theorem writeAlarm_sampleDue (v : List Byte) (s : State) : (writeAlarm v s).sampleDue = s.sampleDue := rfl
@[simp] theorem writeAlarm_railEn (v : List Byte) (s : State) : (writeAlarm v s).railEn = s.railEn := rfl
@[simp] theorem writeAlarm_samplingEn (v : List Byte) (s : State) : (writeAlarm v s).samplingEn = s.samplingEn := rfl
@[simp] theorem writeAlarm_mlPhase (v : List Byte) (s : State) : (writeAlarm v s).mlPhase = s.mlPhase := rfl
@[simp] theorem writeAlarm_brightness (v : List Byte) (s : State) : (writeAlarm v s).brightness = s.brightness := rfl
@[simp] theorem writeAlarm_alarmDt (v : List Byte) (s : State) : (writeAlarm v s).alarmDt = fitBytes s.params.dtBytes v := rfl
@[simp] theorem writeAlarm_hapticActive (v : List Byte) (s : State) : (writeAlarm v s).hapticActive = s.hapticActive := rfl
@[simp] theorem writeAlarm_busErrCnt (v : List Byte) (s : State) : (writeAlarm v s).busErrCnt = s.busErrCnt := rfl
@[simp] theorem writeAlarm_busErrLast (v : List Byte) (s : State) : (writeAlarm v s).busErrLast = s.busErrLast := rfl
@[simp] theorem writeAlarm_msgDropCnt (v : List Byte) (s : State) : (writeAlarm v s).msgDropCnt = s.msgDropCnt := rfl
@[simp] theorem writeAlarm_msgErrLast (v : List Byte) (s : State) : (writeAlarm v s).msgErrLast = s.msgErrLast := rfl
@[simp] theorem writeAlarm_out (v : List Byte) (s : State) : (writeAlarm v s).out = s.out := rfl
@[simp] theorem writeAlarm_events (v : List Byte) (s : State) : (writeAlarm v s).events = s.events := rfl
@[simp] theorem writeAlarm_freeCtr (v : List Byte) (s : State) : (writeAlarm v s).freeCtr = s.freeCtr := rfl

/-! `Abort()` "never writes `cmd_pending`, `IB`, `irq`, `tx_cur` or the record" (R213). -/

@[simp] theorem abort_params (s : State) : (abort s).params = s.params := rfl
@[simp] theorem abort_status (s : State) : (abort s).status = s.status := rfl
@[simp] theorem abort_buttons (s : State) : (abort s).buttons = s.buttons := rfl
@[simp] theorem abort_joyX (s : State) : (abort s).joyX = s.joyX := rfl
@[simp] theorem abort_joyY (s : State) : (abort s).joyY = s.joyY := rfl
@[simp] theorem abort_vbatt (s : State) : (abort s).vbatt = s.vbatt := rfl
@[simp] theorem abort_temp (s : State) : (abort s).temp = s.temp := rfl
@[simp] theorem abort_time (s : State) : (abort s).time = s.time := rfl
@[simp] theorem abort_ib (s : State) : (abort s).ib = s.ib := rfl
@[simp] theorem abort_rxLen (s : State) : (abort s).rxLen = if s.busState = .receivingCommand then 0 else s.rxLen := rfl
@[simp] theorem abort_cmdPending (s : State) : (abort s).cmdPending = s.cmdPending := rfl
@[simp] theorem abort_busState (s : State) : (abort s).busState = .idle := rfl
@[simp] theorem abort_txCur (s : State) : (abort s).txCur = s.txCur := rfl
@[simp] theorem abort_irq (s : State) : (abort s).irq = s.irq := rfl
@[simp] theorem abort_btnTimer (s : State) : (abort s).btnTimer = s.btnTimer := rfl
@[simp] theorem abort_pwrPrev (s : State) : (abort s).pwrPrev = s.pwrPrev := rfl
@[simp] theorem abort_pwrTrack (s : State) : (abort s).pwrTrack = s.pwrTrack := rfl
@[simp] theorem abort_confirmed (s : State) : (abort s).confirmed = s.confirmed := rfl
@[simp] theorem abort_holdCnt (s : State) : (abort s).holdCnt = s.holdCnt := rfl
@[simp] theorem abort_wakeTo (s : State) : (abort s).wakeTo = s.wakeTo := rfl
@[simp] theorem abort_muxSel (s : State) : (abort s).muxSel = s.muxSel := rfl
@[simp] theorem abort_muxDiv (s : State) : (abort s).muxDiv = s.muxDiv := rfl
@[simp] theorem abort_sampleDue (s : State) : (abort s).sampleDue = s.sampleDue := rfl
@[simp] theorem abort_railEn (s : State) : (abort s).railEn = s.railEn := rfl
@[simp] theorem abort_samplingEn (s : State) : (abort s).samplingEn = s.samplingEn := rfl
@[simp] theorem abort_mlPhase (s : State) : (abort s).mlPhase = s.mlPhase := rfl
@[simp] theorem abort_brightness (s : State) : (abort s).brightness = s.brightness := rfl
@[simp] theorem abort_alarmDt (s : State) : (abort s).alarmDt = s.alarmDt := rfl
@[simp] theorem abort_hapticActive (s : State) : (abort s).hapticActive = s.hapticActive := rfl
@[simp] theorem abort_busErrCnt (s : State) : (abort s).busErrCnt = s.busErrCnt := rfl
@[simp] theorem abort_busErrLast (s : State) : (abort s).busErrLast = s.busErrLast := rfl
@[simp] theorem abort_msgDropCnt (s : State) : (abort s).msgDropCnt = s.msgDropCnt := rfl
@[simp] theorem abort_msgErrLast (s : State) : (abort s).msgErrLast = s.msgErrLast := rfl
@[simp] theorem abort_out (s : State) : (abort s).out = s.out := rfl
@[simp] theorem abort_events (s : State) : (abort s).events = s.events := rfl
@[simp] theorem abort_freeCtr (s : State) : (abort s).freeCtr = s.freeCtr := rfl

/-! The end of a command service (R170). -/

@[simp] theorem finishCommand_params (s : State) : (finishCommand s).params = s.params := rfl
@[simp] theorem finishCommand_status (s : State) : (finishCommand s).status = s.status := rfl
@[simp] theorem finishCommand_buttons (s : State) : (finishCommand s).buttons = s.buttons := rfl
@[simp] theorem finishCommand_joyX (s : State) : (finishCommand s).joyX = s.joyX := rfl
@[simp] theorem finishCommand_joyY (s : State) : (finishCommand s).joyY = s.joyY := rfl
@[simp] theorem finishCommand_vbatt (s : State) : (finishCommand s).vbatt = s.vbatt := rfl
@[simp] theorem finishCommand_temp (s : State) : (finishCommand s).temp = s.temp := rfl
@[simp] theorem finishCommand_time (s : State) : (finishCommand s).time = s.time := rfl
@[simp] theorem finishCommand_ib (s : State) : (finishCommand s).ib = s.ib := rfl
@[simp] theorem finishCommand_rxLen (s : State) : (finishCommand s).rxLen = s.rxLen := rfl
@[simp] theorem finishCommand_cmdPending (s : State) : (finishCommand s).cmdPending = false := rfl
@[simp] theorem finishCommand_busState (s : State) : (finishCommand s).busState = s.busState := rfl
@[simp] theorem finishCommand_txCur (s : State) : (finishCommand s).txCur = s.txCur := rfl
@[simp] theorem finishCommand_irq (s : State) : (finishCommand s).irq = s.irq := rfl
@[simp] theorem finishCommand_btnTimer (s : State) : (finishCommand s).btnTimer = s.btnTimer := rfl
@[simp] theorem finishCommand_pwrPrev (s : State) : (finishCommand s).pwrPrev = s.pwrPrev := rfl
@[simp] theorem finishCommand_pwrTrack (s : State) : (finishCommand s).pwrTrack = s.pwrTrack := rfl
@[simp] theorem finishCommand_confirmed (s : State) : (finishCommand s).confirmed = s.confirmed := rfl
@[simp] theorem finishCommand_holdCnt (s : State) : (finishCommand s).holdCnt = s.holdCnt := rfl
@[simp] theorem finishCommand_wakeTo (s : State) : (finishCommand s).wakeTo = s.wakeTo := rfl
@[simp] theorem finishCommand_muxSel (s : State) : (finishCommand s).muxSel = s.muxSel := rfl
@[simp] theorem finishCommand_muxDiv (s : State) : (finishCommand s).muxDiv = s.muxDiv := rfl
@[simp] theorem finishCommand_sampleDue (s : State) : (finishCommand s).sampleDue = s.sampleDue := rfl
@[simp] theorem finishCommand_railEn (s : State) : (finishCommand s).railEn = s.railEn := rfl
@[simp] theorem finishCommand_samplingEn (s : State) : (finishCommand s).samplingEn = s.samplingEn := rfl
@[simp] theorem finishCommand_mlPhase (s : State) : (finishCommand s).mlPhase = .buttons := rfl
@[simp] theorem finishCommand_brightness (s : State) : (finishCommand s).brightness = s.brightness := rfl
@[simp] theorem finishCommand_alarmDt (s : State) : (finishCommand s).alarmDt = s.alarmDt := rfl
@[simp] theorem finishCommand_hapticActive (s : State) : (finishCommand s).hapticActive = s.hapticActive := rfl
@[simp] theorem finishCommand_busErrCnt (s : State) : (finishCommand s).busErrCnt = s.busErrCnt := rfl
@[simp] theorem finishCommand_busErrLast (s : State) : (finishCommand s).busErrLast = s.busErrLast := rfl
@[simp] theorem finishCommand_msgDropCnt (s : State) : (finishCommand s).msgDropCnt = s.msgDropCnt := rfl
@[simp] theorem finishCommand_msgErrLast (s : State) : (finishCommand s).msgErrLast = s.msgErrLast := rfl
@[simp] theorem finishCommand_out (s : State) : (finishCommand s).out = s.out := rfl
@[simp] theorem finishCommand_events (s : State) : (finishCommand s).events = s.events := rfl
@[simp] theorem finishCommand_freeCtr (s : State) : (finishCommand s).freeCtr = s.freeCtr := rfl

/-! The advance of the main loop (R240). -/

@[simp] theorem advancePhase_params (s : State) : (advancePhase s).params = s.params := rfl
@[simp] theorem advancePhase_status (s : State) : (advancePhase s).status = s.status := rfl
@[simp] theorem advancePhase_buttons (s : State) : (advancePhase s).buttons = s.buttons := rfl
@[simp] theorem advancePhase_joyX (s : State) : (advancePhase s).joyX = s.joyX := rfl
@[simp] theorem advancePhase_joyY (s : State) : (advancePhase s).joyY = s.joyY := rfl
@[simp] theorem advancePhase_vbatt (s : State) : (advancePhase s).vbatt = s.vbatt := rfl
@[simp] theorem advancePhase_temp (s : State) : (advancePhase s).temp = s.temp := rfl
@[simp] theorem advancePhase_time (s : State) : (advancePhase s).time = s.time := rfl
@[simp] theorem advancePhase_ib (s : State) : (advancePhase s).ib = s.ib := rfl
@[simp] theorem advancePhase_rxLen (s : State) : (advancePhase s).rxLen = s.rxLen := rfl
@[simp] theorem advancePhase_cmdPending (s : State) : (advancePhase s).cmdPending = s.cmdPending := rfl
@[simp] theorem advancePhase_busState (s : State) : (advancePhase s).busState = s.busState := rfl
@[simp] theorem advancePhase_txCur (s : State) : (advancePhase s).txCur = s.txCur := rfl
@[simp] theorem advancePhase_irq (s : State) : (advancePhase s).irq = s.irq := rfl
@[simp] theorem advancePhase_btnTimer (s : State) : (advancePhase s).btnTimer = s.btnTimer := rfl
@[simp] theorem advancePhase_pwrPrev (s : State) : (advancePhase s).pwrPrev = s.pwrPrev := rfl
@[simp] theorem advancePhase_pwrTrack (s : State) : (advancePhase s).pwrTrack = s.pwrTrack := rfl
@[simp] theorem advancePhase_confirmed (s : State) : (advancePhase s).confirmed = s.confirmed := rfl
@[simp] theorem advancePhase_holdCnt (s : State) : (advancePhase s).holdCnt = s.holdCnt := rfl
@[simp] theorem advancePhase_wakeTo (s : State) : (advancePhase s).wakeTo = s.wakeTo := rfl
@[simp] theorem advancePhase_muxSel (s : State) : (advancePhase s).muxSel = s.muxSel := rfl
@[simp] theorem advancePhase_muxDiv (s : State) : (advancePhase s).muxDiv = s.muxDiv := rfl
@[simp] theorem advancePhase_sampleDue (s : State) : (advancePhase s).sampleDue = s.sampleDue := rfl
@[simp] theorem advancePhase_railEn (s : State) : (advancePhase s).railEn = s.railEn := rfl
@[simp] theorem advancePhase_samplingEn (s : State) : (advancePhase s).samplingEn = s.samplingEn := rfl
@[simp] theorem advancePhase_mlPhase (s : State) : (advancePhase s).mlPhase = Phase.next s.mlPhase := rfl
@[simp] theorem advancePhase_brightness (s : State) : (advancePhase s).brightness = s.brightness := rfl
@[simp] theorem advancePhase_alarmDt (s : State) : (advancePhase s).alarmDt = s.alarmDt := rfl
@[simp] theorem advancePhase_hapticActive (s : State) : (advancePhase s).hapticActive = s.hapticActive := rfl
@[simp] theorem advancePhase_busErrCnt (s : State) : (advancePhase s).busErrCnt = s.busErrCnt := rfl
@[simp] theorem advancePhase_busErrLast (s : State) : (advancePhase s).busErrLast = s.busErrLast := rfl
@[simp] theorem advancePhase_msgDropCnt (s : State) : (advancePhase s).msgDropCnt = s.msgDropCnt := rfl
@[simp] theorem advancePhase_msgErrLast (s : State) : (advancePhase s).msgErrLast = s.msgErrLast := rfl
@[simp] theorem advancePhase_out (s : State) : (advancePhase s).out = s.out := rfl
@[simp] theorem advancePhase_events (s : State) : (advancePhase s).events = s.events := rfl
@[simp] theorem advancePhase_freeCtr (s : State) : (advancePhase s).freeCtr = s.freeCtr := rfl

end Sys2Proof.Machine
end

