-- ==== Sys2Proof/Laws/Ops.lean ====
section
/-! SUPPORT. For each shared operation, once, everything it can do: what it makes of the registers it writes, and that it
writes no other (a `_frame` lemma says `op s = { s with … }` with exactly the written registers listed). -/

namespace Sys2Proof.Machine

/-! ### The setters (R27, R243) -/

/-- `SetFlag` reports whether the value changed (R27). -/
@[simp] theorem setFlag_reports (f : Flag) (b : Bool) (s : State) :
    (setFlag f b s).2 = decide (flagOf f s.status ≠ b) := by
  unfold setFlag
  split <;> simp_all

/-- `SetFlag` writes the flag, and arms the line when the value changed; nothing else (R27). -/
theorem setFlag_frame (f : Flag) (b : Bool) (s : State) :
    (setFlag f b s).1 =
      { s with
        status := if flagOf f s.status = b then s.status else setBit s.status (Flag.bit f) b
        irq := if flagOf f s.status = b then s.irq else true } := by
  unfold setFlag
  split <;> simp_all [arm]

/-- The flags after `SetFlag` (R21, R27). -/
theorem setFlag_flagOf (f g : Flag) (b : Bool) (s : State) :
    flagOf g (setFlag f b s).1.status = if g = f then b else flagOf g s.status := by
  rw [setFlag_frame]
  dsimp only
  split
  · next h =>
    split
    · next hg => rw [hg, h]
    · rfl
  · exact flagOf_setBit f g s.status b

/-- `SetFlag` leaves the mode. -/
@[simp] theorem setFlag_modeField (f : Flag) (b : Bool) (s : State) :
    modeField (setFlag f b s).1.status = modeField s.status := by
  rw [setFlag_frame]
  dsimp only
  split <;> simp

/-- `SetMode` reports whether the value changed (R243). -/
@[simp] theorem setMode_reports (m : Mode) (s : State) :
    (setMode m s).2 = decide (modeField s.status ≠ m.code) := by
  unfold setMode
  split <;> simp_all

/-- `SetMode` writes the mode and, when it changed, arms the line and ends the press tracking; nothing else (R243). -/
theorem setMode_frame (m : Mode) (s : State) :
    (setMode m s).1 =
      { s with
        status := if modeField s.status = m.code then s.status else withModeField s.status m
        irq := if modeField s.status = m.code then s.irq else true
        pwrTrack := if modeField s.status = m.code then s.pwrTrack else false
        holdCnt := if modeField s.status = m.code then s.holdCnt else 0 } := by
  unfold setMode
  split <;> simp_all [arm]

/-- The mode field after `SetMode` (R243). -/
@[simp] theorem setMode_modeField (m : Mode) (s : State) : modeField (setMode m s).1.status = m.code := by
  rw [setMode_frame]
  dsimp only
  split <;> simp_all

/-- The mode after `SetMode` (R243). -/
@[simp] theorem setMode_mode (m : Mode) (s : State) : (setMode m s).1.mode = some m := by
  simp [State.mode]

/-- `SetMode` leaves every flag (R21). -/
@[simp] theorem setMode_flagOf (f : Flag) (m : Mode) (s : State) :
    flagOf f (setMode m s).1.status = flagOf f s.status := by
  rw [setMode_frame]
  dsimp only
  split <;> simp

/-- The mode is read from the status byte alone. -/
theorem State.mode_congr {s t : State} (h : t.status = s.status) : t.mode = s.mode := by simp [State.mode, h]

/-- `WakeUp`, or `PowerUp` (R258). -/
theorem State.isWaking_iff {s : State} : s.isWaking = true ↔ s.mode = some .wakeUp ∨ s.mode = some .powerUp := by
  simp [State.isWaking]

/-- In one mode the mode field is not another mode's code. -/
theorem State.modeField_ne {s : State} {m m' : Mode} (h : s.mode = some m) (hne : m ≠ m') :
    modeField s.status ≠ m'.code := by
  rw [State.mode_eq_some] at h
  rw [h]
  cases m <;> cases m' <;> simp_all [Mode.code]

/-- A change of mode arms the line and ends the press tracking (R243). -/
theorem setMode_of_ne {s : State} {m m' : Mode} (h : s.mode = some m) (hne : m ≠ m') :
    (setMode m' s).1.irq = true ∧ (setMode m' s).1.pwrTrack = false ∧ (setMode m' s).1.holdCnt = 0 := by
  rw [setMode_frame]
  simp [State.modeField_ne h hne]

/-- A string of the right length goes into the registers as it is (R84). -/
theorem fitBytes_self (d : List Byte) : fitBytes d.length d = d := by
  apply List.ext_getElem
  · simp [fitBytes]
  · intro i _ h2
    simp [fitBytes, List.getElem?_eq_getElem h2]

@[simp] theorem fitBytes_length (n : Nat) (d : List Byte) : (fitBytes n d).length = n := by simp [fitBytes]

/-! ### Errors (R312, R213) -/

/-- `raise` writes the counter and the cause of the error's class (R312, R313). -/
theorem raise_frame (c : Cause) (s : State) :
    raise c s =
      { s with
        busErrCnt := if Cause.isTransport c then satInc s.busErrCnt else s.busErrCnt
        busErrLast := if Cause.isTransport c then Cause.code c else s.busErrLast
        msgDropCnt := if Cause.isTransport c then s.msgDropCnt else satInc s.msgDropCnt
        msgErrLast := if Cause.isTransport c then s.msgErrLast else Cause.code c } := by
  unfold raise
  split <;> simp_all

/-- `EndWrite` sets `cmd_pending` when a byte was stored (R210). -/
theorem endWrite_frame (s : State) :
    endWrite s = { s with cmdPending := s.cmdPending || decide (1 ≤ s.rxLen) } := by
  by_cases h : 1 ≤ s.rxLen
  · simp [endWrite, h]
  · rw [endWrite, if_neg h, decide_eq_false h, Bool.or_false]

/-- A start or an end inside a write sets `cmd_pending` when a byte was stored; elsewhere it does nothing. -/
theorem endWriteIfReceiving_frame (s : State) :
    endWriteIfReceiving s =
      { s with cmdPending := s.cmdPending || decide (s.busState = .receivingCommand ∧ 1 ≤ s.rxLen) } := by
  unfold endWriteIfReceiving
  rw [endWrite_frame]
  split <;> simp_all

/-! ### The mode entries (R244 to R255, R265) and the contact (R252) -/

/-- `EnterSleep` (R244). -/
theorem enterSleep_frame (s : State) :
    enterSleep s =
      { s with
        status := (setMode .sleep s).1.status, irq := (setMode .sleep s).1.irq
        pwrTrack := (setMode .sleep s).1.pwrTrack, holdCnt := (setMode .sleep s).1.holdCnt
        railEn := false, samplingEn := false, sampleDue := false, muxDiv := 0, confirmed := false, wakeTo := 0 } := by
  rw [enterSleep, setMode_frame]

/-- `EnterWakeUp` (R246). -/
theorem enterWakeUp_frame (s : State) :
    enterWakeUp s =
      { s with
        status := (setMode .wakeUp s).1.status, irq := (setMode .wakeUp s).1.irq, railEn := true, samplingEn := true
        muxDiv := 0, wakeTo := BitVec.ofNat 16 s.params.wakeTimeoutTicks, confirmed := false, pwrTrack := true
        holdCnt := 0 } := by
  rw [enterWakeUp, setMode_frame]

/-- `EnterOn` (R251). -/
theorem enterOn_frame (s : State) :
    enterOn s =
      { s with
        status := (setMode .on s).1.status, irq := (setMode .on s).1.irq
        pwrTrack := (setMode .on s).1.pwrTrack, holdCnt := (setMode .on s).1.holdCnt
        confirmed := false, wakeTo := 0 } := by
  rw [enterOn, setMode_frame]

/-- `EnterPowerDown` (R255). -/
theorem enterPowerDown_frame (s : State) :
    enterPowerDown s =
      { s with
        status := (setMode .powerDown s).1.status, irq := (setMode .powerDown s).1.irq
        pwrTrack := (setMode .powerDown s).1.pwrTrack, holdCnt := (setMode .powerDown s).1.holdCnt } := by
  rw [enterPowerDown, setMode_frame]

@[simp] theorem enterSleep_mode (s : State) : (enterSleep s).mode = some .sleep := setMode_mode .sleep s
@[simp] theorem enterWakeUp_mode (s : State) : (enterWakeUp s).mode = some .wakeUp := setMode_mode .wakeUp s
@[simp] theorem enterOn_mode (s : State) : (enterOn s).mode = some .on := setMode_mode .on s
@[simp] theorem enterPowerDown_mode (s : State) : (enterPowerDown s).mode = some .powerDown := setMode_mode .powerDown s

/-- `WakeHaptic` writes `haptic_active` and the request port at most (R265). -/
theorem wakeHaptic_frame (s : State) :
    wakeHaptic s = { s with out := (wakeHaptic s).out, hapticActive := (wakeHaptic s).hapticActive } := by
  unfold wakeHaptic
  split <;> rfl

/-- `Contact` outside `WakeUp` and `PowerUp` does nothing (R252). -/
theorem contact_of_not_waking {s : State} (h : s.isWaking = false) : contact s = s := by simp [contact, h]

/-- `Contact` in `WakeUp` and `PowerUp` enters `On` (R252). -/
theorem contact_of_waking {s : State} (h : s.isWaking = true) : contact s = enterOn s := by simp [contact, h]

/-- `Contact` writes the registers of `EnterOn` at most. -/
theorem contact_frame (s : State) :
    contact s =
      { s with
        status := (contact s).status, irq := (contact s).irq, pwrTrack := (contact s).pwrTrack
        holdCnt := (contact s).holdCnt, confirmed := (contact s).confirmed, wakeTo := (contact s).wakeTo } := by
  unfold contact
  split
  · rw [enterOn_frame]
  · rfl

/-! ### The codes of the sampler's loop, the tick, the analog step and the supervisor -/

/-- The sampler's loop keeps the number of timers. -/
@[simp] theorem sampleFrom_length (reload raw : Byte) (i : Nat) (ts : List Byte) (btns : Byte) :
    (sampleFrom reload raw i ts btns).timers.length = ts.length := by
  induction ts generalizing i btns with
  | nil => rfl
  | cons t ts ih => simp [sampleFrom, ih]

/-- The sampler's loop leaves the bits outside its range. -/
theorem sampleFrom_outside (reload raw : Byte) {i : Nat} {ts : List Byte} (btns : Byte) (hi : i + ts.length ≤ 8)
    {j : Nat} (hj : j < i ∨ i + ts.length ≤ j) :
    (sampleFrom reload raw i ts btns).buttons.getLsbD j = btns.getLsbD j := by
  induction ts generalizing i btns with
  | nil => rfl
  | cons t ts ih =>
    simp only [List.length_cons] at hi hj
    simp only [sampleFrom]
    rw [ih _ (by omega) (by omega)]
    split
    · rw [getLsbD_setBit _ (by omega), if_neg (by omega)]
    · rfl

/-- Bit `i + k` after the sampler's loop: the raw level where the button was unlocked, else as before (R281). -/
theorem sampleFrom_buttons (reload raw : Byte) {i : Nat} {ts : List Byte} (btns : Byte) (hi : i + ts.length ≤ 8)
    {k : Nat} (hk : k < ts.length) :
    (sampleFrom reload raw i ts btns).buttons.getLsbD (i + k) =
      if ts.getD k 0#8 = 0#8 then raw.getLsbD (i + k) else btns.getLsbD (i + k) := by
  induction ts generalizing i btns k with
  | nil => simp at hk
  | cons t ts ih =>
    simp only [List.length_cons] at hi hk
    simp only [sampleFrom]
    cases k with
    | zero =>
      rw [sampleFrom_outside _ _ _ (by omega) (by omega)]
      by_cases ht : t = 0#8 <;> by_cases hr : raw.getLsbD i = btns.getLsbD i <;>
        simp [ht, hr, getLsbD_setBit _ (show i < 8 by omega)]
    | succ k =>
      rw [show i + (k + 1) = (i + 1) + k by omega, ih _ (by omega) (by omega)]
      simp only [List.getD_cons_succ]
      split
      · rfl
      · split
        · rw [getLsbD_setBit _ (by omega), if_neg (by omega)]
        · rfl

/-- Timer `k` after the sampler's loop: reloaded where a change was accepted, else as before (R281). -/
theorem sampleFrom_timers (reload raw : Byte) {i : Nat} {ts : List Byte} (btns : Byte) (hi : i + ts.length ≤ 8)
    {k : Nat} (hk : k < ts.length) :
    (sampleFrom reload raw i ts btns).timers.getD k 0#8 =
      if ts.getD k 0#8 = 0#8 ∧ raw.getLsbD (i + k) ≠ btns.getLsbD (i + k) then reload else ts.getD k 0#8 := by
  induction ts generalizing i btns k with
  | nil => simp at hk
  | cons t ts ih =>
    simp only [List.length_cons] at hi hk
    simp only [sampleFrom]
    cases k with
    | zero => simp
    | succ k =>
      rw [List.getD_cons_succ, ih _ (by omega) (by omega), List.getD_cons_succ]
      rw [show i + (k + 1) = (i + 1) + k by omega]
      have hb : ∀ c : Bool, (if c then setBit btns i (raw.getLsbD i) else btns).getLsbD (i + 1 + k) =
          btns.getLsbD (i + 1 + k) := by
        intro c
        cases c
        · rfl
        · simp only [if_true]
          rw [getLsbD_setBit _ (by omega), if_neg (by omega)]
      rw [hb]

/-- The sampler reports a change exactly when some unlocked button differs (R281). -/
theorem sampleFrom_any (reload raw : Byte) {i : Nat} {ts : List Byte} (btns : Byte) (hi : i + ts.length ≤ 8) :
    (sampleFrom reload raw i ts btns).any = true ↔
      ∃ k, k < ts.length ∧ ts.getD k 0#8 = 0#8 ∧ raw.getLsbD (i + k) ≠ btns.getLsbD (i + k) := by
  induction ts generalizing i btns with
  | nil => simp [sampleFrom]
  | cons t ts ih =>
    simp only [List.length_cons] at hi
    have hb : ∀ (c : Bool) (k : Nat), (if c then setBit btns i (raw.getLsbD i) else btns).getLsbD (i + 1 + k) =
        btns.getLsbD (i + 1 + k) := by
      intro c k
      cases c
      · rfl
      · simp only [if_true]
        rw [getLsbD_setBit _ (by omega), if_neg (by omega)]
    simp only [sampleFrom, Bool.or_eq_true, ih _ (show i + 1 + ts.length ≤ 8 by omega), hb]
    constructor
    · rintro (h | ⟨k, hk, h0, hne⟩)
      · exact ⟨0, by simp, by simp_all⟩
      · exact ⟨k + 1, by simp [hk], by simpa using h0, by rwa [show i + (k + 1) = i + 1 + k by omega]⟩
    · rintro ⟨k, hk, h0, hne⟩
      cases k with
      | zero => exact Or.inl (by simp_all)
      | succ k =>
        refine Or.inr ⟨k, by simpa using hk, by simpa using h0, ?_⟩
        rwa [show i + (k + 1) = i + 1 + k by omega] at hne

/-- `ButtonSample` writes the timers, the buttons and the signal line at most (R281). -/
theorem buttonSample_frame (raw : Byte) (s : State) :
    buttonSample raw s =
      { s with
        btnTimer := (sampleFrom (BitVec.ofNat 8 s.params.debounceTicks) raw 0 s.btnTimer s.buttons).timers
        buttons := (sampleFrom (BitVec.ofNat 8 s.params.debounceTicks) raw 0 s.btnTimer s.buttons).buttons
        irq := (sampleFrom (BitVec.ofNat 8 s.params.debounceTicks) raw 0 s.btnTimer s.buttons).any || s.irq } := by
  simp only [buttonSample]
  split <;> simp_all [arm]

/-- `Tick` writes five registers and nothing else: "it only counts" (R285). -/
theorem tick_frame (s : State) :
    tick s =
      { s with
        btnTimer := s.btnTimer.map dec0
        holdCnt := if s.pwrTrack && s.powerButton then satInc s.holdCnt else s.holdCnt
        wakeTo := if s.isWaking then dec0 s.wakeTo else s.wakeTo
        sampleDue := s.sampleDue || (s.samplingEn && s.muxDiv == 0#16)
        muxDiv :=
          if s.samplingEn then
            if s.muxDiv = 0 then BitVec.ofNat 16 (s.params.analogPeriodTicks - 1) else s.muxDiv - 1
          else s.muxDiv } := by
  have hp : ∀ u : List Byte, ({ s with btnTimer := u } : State).powerButton = s.powerButton := fun _ => rfl
  have hw : ∀ (u : List Byte) (h : Half), ({ s with btnTimer := u, holdCnt := h } : State).isWaking = s.isWaking :=
    fun _ _ => rfl
  unfold tick tickHold
  dsimp only
  rw [hp]
  unfold tickWake tickMux
  by_cases h1 : (s.pwrTrack && s.powerButton) = true <;> simp only [h1, if_true, hw] <;>
    by_cases h2 : s.isWaking = true <;> by_cases h3 : s.samplingEn = true <;> by_cases h4 : s.muxDiv = 0 <;>
      simp_all

/-- `AnalogSample` writes a record byte, the signal line and the multiplexer's registers at most (R297). -/
theorem analogSample_frame (a : Half) (s : State) :
    analogSample a s =
      { s with
        joyX := (analogSample a s).joyX, joyY := (analogSample a s).joyY, vbatt := (analogSample a s).vbatt
        temp := (analogSample a s).temp, irq := (analogSample a s).irq, muxSel := (analogSample a s).muxSel
        sampleDue := (analogSample a s).sampleDue } := by
  unfold analogSample storeSample setChannelByte arm
  split
  · split
    · rfl
    · split <;> rfl
  · rfl

/-- The supervisor's rules write the supervisor's registers, the mode, the line, and at most start a haptic pulse; never a
bus register (R214). -/
theorem superviseMode_frame (press p rel : Bool) (s : State) :
    superviseMode press p rel s =
      { s with
        status := (superviseMode press p rel s).status, irq := (superviseMode press p rel s).irq
        pwrTrack := (superviseMode press p rel s).pwrTrack, holdCnt := (superviseMode press p rel s).holdCnt
        confirmed := (superviseMode press p rel s).confirmed, wakeTo := (superviseMode press p rel s).wakeTo
        railEn := (superviseMode press p rel s).railEn, samplingEn := (superviseMode press p rel s).samplingEn
        sampleDue := (superviseMode press p rel s).sampleDue, muxDiv := (superviseMode press p rel s).muxDiv
        out := (superviseMode press p rel s).out, hapticActive := (superviseMode press p rel s).hapticActive } := by
  have hw : superviseWaking p s =
      { s with
        status := (superviseWaking p s).status, irq := (superviseWaking p s).irq
        pwrTrack := (superviseWaking p s).pwrTrack, holdCnt := (superviseWaking p s).holdCnt
        confirmed := (superviseWaking p s).confirmed, wakeTo := (superviseWaking p s).wakeTo
        railEn := (superviseWaking p s).railEn, samplingEn := (superviseWaking p s).samplingEn
        sampleDue := (superviseWaking p s).sampleDue, muxDiv := (superviseWaking p s).muxDiv
        out := (superviseWaking p s).out, hapticActive := (superviseWaking p s).hapticActive } := by
    have hu : superviseUnconfirmed p s =
        { s with
          status := (superviseUnconfirmed p s).status, irq := (superviseUnconfirmed p s).irq
          pwrTrack := (superviseUnconfirmed p s).pwrTrack, holdCnt := (superviseUnconfirmed p s).holdCnt
          confirmed := (superviseUnconfirmed p s).confirmed, wakeTo := (superviseUnconfirmed p s).wakeTo
          railEn := (superviseUnconfirmed p s).railEn, samplingEn := (superviseUnconfirmed p s).samplingEn
          sampleDue := (superviseUnconfirmed p s).sampleDue, muxDiv := (superviseUnconfirmed p s).muxDiv
          out := (superviseUnconfirmed p s).out, hapticActive := (superviseUnconfirmed p s).hapticActive } := by
      unfold superviseUnconfirmed
      split
      · rw [wakeHaptic_frame]
      · split
        · rfl
        · rw [enterSleep_frame]
    unfold superviseWaking
    split
    · dsimp only
      split
      · rw [enterSleep_frame]
      · rfl
    · rw [hu]
      dsimp only
      split
      · rw [enterSleep_frame]
      · rfl
  unfold superviseMode
  split
  · unfold superviseSleep
    split
    · rw [enterWakeUp_frame]
    · rfl
  · exact hw
  · exact hw
  · cases press <;> simp only [superviseOn, Bool.false_eq_true, if_false, if_true]
    · split
      · split
        · rw [enterSleep_frame]
        · split
          · rfl
          · rw [enterPowerDown_frame]
      · rfl
    · split
      · rw [enterSleep_frame]
      · split
        · rfl
        · rw [enterPowerDown_frame]
  · unfold supervisePowerDown
    split
    · rw [enterSleep_frame]
    · rfl
  · rfl

/-! ### Bus steps -/

/-- What a `DTS` in `SendingState` writes: the cursor, or the state at the end; and the response (R203). -/
theorem sendNextByte_frame (s : State) :
    sendNextByte s =
      { s with
        txCur := if s.txCur < s.params.srBytes then s.txCur + 1 else s.txCur
        busState := if s.txCur < s.params.srBytes then s.busState else .idle
        out := { s.out with
          resp := some (if s.txCur < s.params.srBytes then .data (s.recordByte s.txCur) else .complete) } } := by
  unfold sendNextByte respond
  split <;> rfl

/-- What the end of a stored byte writes (R206). -/
theorem byteStored_frame (s : State) :
    byteStored s =
      { s with
        rxLen := s.rxLen + 1
        cmdPending := if s.rxLen + 1 < s.params.cap then s.cmdPending else true
        busState := if s.rxLen + 1 < s.params.cap then s.busState else .idle
        out := { s.out with resp := some (if s.rxLen + 1 < s.params.cap then .ack else .complete) } } := by
  unfold byteStored respond
  dsimp only
  split <;> rfl

/-- Everything a `DRX` can do where it answers a next state (R206, R207). -/
theorem execDrx_cases {b : Byte} {s t : State} (h : execDrx b s = .next t) :
    (s.busState = .receivingCommand ∧ s.rxLen + 1 ≤ s.params.cap ∧
      t = byteStored { s with ib := Memory.write s.ib s.rxLen b }) ∨
    (s.busState ≠ .receivingCommand ∧ t = respond .nack (abort (raise .strayData s))) := by
  unfold execDrx at h
  split at h
  · next hr =>
    split at h
    · cases h
    · next u hu =>
      obtain ⟨hle, rfl⟩ := memWrite_cases hu
      cases h
      exact Or.inl ⟨hr, hle, rfl⟩
  · next hr =>
    cases h
    exact Or.inr ⟨hr, rfl⟩

end Sys2Proof.Machine
end

