-- ==== Sys2Proof/Laws/PerInstr.lean ====
section
/-! SUPPORT. One family of statements made per instruction: `SizedEncoding`, the encoding of each instruction by itself. A
message's encoding starts with an ordinal whose size is the encoding's length (R121, R122); a condition's encoding is the
vector the priority decode reads as that condition (R130). -/

namespace Sys2Proof.Laws

/-- The encoding of a well-formed message has the size of its ordinal; the encoding of a condition reads as it. -/
def SizedEncoding.Statement (i : Instr) : Prop :=
  ∀ dtBytes, i.wf dtBytes = true →
    match encode i with
    | .message m => m ≠ [] ∧ messageSize dtBytes (byteAt m 0) = some m.length
    | .condition c rx => decodeBus c rx = i

theorem SizedEncoding.nop : SizedEncoding.Statement .nop := fun _ _ => ⟨by simp, rfl⟩
theorem SizedEncoding.reset : SizedEncoding.Statement .reset := fun _ _ => ⟨by simp, rfl⟩
theorem SizedEncoding.info : SizedEncoding.Statement .info := fun _ _ => ⟨by simp, rfl⟩
theorem SizedEncoding.recStart : SizedEncoding.Statement .recStart := fun _ _ => ⟨by simp, rfl⟩
theorem SizedEncoding.recStop : SizedEncoding.Statement .recStop := fun _ _ => ⟨by simp, rfl⟩
theorem SizedEncoding.setBrightness (value : Byte) : SizedEncoding.Statement (.setBrightness value) :=
  fun _ _ => ⟨by simp, rfl⟩
theorem SizedEncoding.setClock (dt : List Byte) : SizedEncoding.Statement (.setClock dt) := fun _ h =>
  ⟨by simp, by simp only [Instr.wf, beq_iff_eq] at h; simp [messageSize, h, Nat.add_comm]⟩
theorem SizedEncoding.setAlarm (dt : List Byte) : SizedEncoding.Statement (.setAlarm dt) := fun _ h =>
  ⟨by simp, by simp only [Instr.wf, beq_iff_eq] at h; simp [messageSize, h, Nat.add_comm]⟩
theorem SizedEncoding.haptic (intensity duration : Byte) : SizedEncoding.Statement (.haptic intensity duration) :=
  fun _ _ => ⟨by simp, rfl⟩
theorem SizedEncoding.hapticAck : SizedEncoding.Statement .hapticAck := fun _ _ => ⟨by simp, rfl⟩
theorem SizedEncoding.hapticFail : SizedEncoding.Statement .hapticFail := fun _ _ => ⟨by simp, rfl⟩
theorem SizedEncoding.powerDown : SizedEncoding.Statement .powerDown := fun _ _ => ⟨by simp, rfl⟩
theorem SizedEncoding.dts : SizedEncoding.Statement .dts := fun _ _ => rfl
theorem SizedEncoding.drx (byte : Byte) : SizedEncoding.Statement (.drx byte) := fun _ _ => rfl
theorem SizedEncoding.sor : SizedEncoding.Statement .sor := fun _ _ => rfl
theorem SizedEncoding.sow : SizedEncoding.Statement .sow := fun _ _ => rfl
theorem SizedEncoding.eot : SizedEncoding.Statement .eot := fun _ _ => rfl
theorem SizedEncoding.other : SizedEncoding.Statement .other := fun _ _ => rfl

end Sys2Proof.Laws
end

