-- ==== Sys2Proof/Laws/Step.lean ====
section
/-! SUPPORT. The step and the command service, once: which event a step serves, in which state, and everything the command
service can do. -/

namespace Sys2Proof.Machine

/-- A step with an input waiting serves it (R12). -/
theorem step_of_cons {s : State} {e : Event} {rest : List Event} (h : s.events = e :: rest) :
    step s = runEvent e { s with events := rest, out := .quiet } := by
  simp [step, nextEvent, takeEvent, h]

/-- A step with no input waiting serves a free one (log 2). -/
theorem step_of_nil {s : State} (h : s.events = []) :
    step s = runEvent (Config.freeEvent s.freeCtr) { s with freeCtr := s.freeCtr + 1, out := .quiet } := by
  simp [step, nextEvent, takeEvent, h]

/-- Taking an event writes the model's own fields alone. -/
theorem takeEvent_frame (s : State) :
    takeEvent s = { s with events := (takeEvent s).events, out := .quiet, freeCtr := (takeEvent s).freeCtr } := by
  unfold takeEvent
  split <;> rfl

/-- A fed event is served in the state itself, the ports quiet (R12). -/
theorem feed_eq (e : Event) (s : State) : feed e s = runEvent e { s with out := .quiet } := by
  rw [feed, step_of_cons rfl]

/-- The command service always finds its buffer (R83). -/
@[simp] theorem fetchCommand_eq (s : State) :
    fetchCommand s = .ok (decodeBuffer s.params.dtBytes (Memory.readN s.ib 0 s.params.cap) s.rxLen) := by
  rw [fetchCommand, memRead_ok (by omega)]

/-- Everything the command service can do (R170). -/
theorem commandService_cases {s t : State} (h : commandService s = .next t) :
    (s.cmdPending = false ∧ t = { s with mlPhase := .buttons }) ∨
    (s.cmdPending = true ∧ ∃ e, fetchCommand s = .ok (.error e) ∧ t = finishCommand (raise (causeOfDecode e) s)) ∨
    (s.cmdPending = true ∧ ∃ i, fetchCommand s = .ok (.ok i) ∧ exec i s = .next t) := by
  unfold commandService at h
  split at h
  · next hp =>
    split at h
    · cases h
    · next e he => cases h; exact Or.inr (Or.inl ⟨hp, e, he, rfl⟩)
    · next i hi => exact Or.inr (Or.inr ⟨hp, i, hi, h⟩)
  · next hp =>
    cases h
    exact Or.inl ⟨by simpa using hp, rfl⟩

/-- What a pending command decodes to is a message. -/
theorem fetchCommand_is_message {s : State} {i : Instr} (h : fetchCommand s = .ok (.ok i)) :
    ∃ m, encode i = .message m := by
  rw [fetchCommand_eq] at h
  injection h with h
  exact messageOf_is_message (decodeBuffer_ok h)

end Sys2Proof.Machine
end

