-- ==== Sys2Proof/Tests/Slice0.lean ====
section
/-! SUPPORT. Tests of one step each on values of the spec's vectors (`95_test_vectors.md`; each test names its vector), the
ill-formed terms every check refuses, words written out from the spec's encodings, and for every statement with hypotheses
a concrete state that meets them (`witness_<statement>`). -/

namespace Sys2Proof.Tests

open Sys2Proof Sys2Proof.Machine Sys2Proof.Views

/-! ### States -/

/-- `On`, rail and sampling on. -/
def onState : State := { State.reset with status := 0x03, railEn := true, samplingEn := true }

/-- `WakeUp`, confirmed, as the message vectors start it. -/
def wakingState : State :=
  { State.reset with status := 0x01, railEn := true, samplingEn := true, confirmed := true, wakeTo := 2950 }

/-- `PowerDown`, rail and sampling on. -/
def powerDownState : State := { State.reset with status := 0x04, railEn := true, samplingEn := true }

/-- The record of the bus vectors, in `On`. -/
def busState : State :=
  { onState with joyX := 0x80, joyY := 0x7F, vbatt := 0x82, temp := 0x57, time := [0x11, 0x22, 0x33, 0x44] }

/-- `s` with the bytes `m` pending and the command phase next. -/
def pending (m : List Byte) (s : State) : State :=
  { s with
    ib := Memory.writeN [] 0 m, rxLen := m.length, cmdPending := true, mlPhase := .command
    events := [.main 0x00 0x0000 false] }

/-- What `f` reads of the state a result leaves. -/
def after {α : Type} (r : Result) (f : State → α) : Option α := (nextOf r).map f

/-- The step that serves the message `m`. -/
def serving (m : List Byte) (s : State) : Result := step (pending m s)

/-- One bus strobe. -/
def strobe (c : BitVec 5) (rx : Byte) (s : State) : Result := step { s with events := [.bus c rx] }

/-- One step of the main loop in phase `ph`. -/
def mainIn (ph : Phase) (b : Byte) (a : Half) (h : Bool) (s : State) : Result :=
  step { s with mlPhase := ph, events := [.main b a h] }

/-! ### Well-formedness refuses the ill-formed -/

theorem test_wf_spec_parameters : Params.specExample.wf := by decide
theorem test_wf_refuses_no_button : ¬ { Params.specExample with nBtn := 0 }.wf := by decide
theorem test_wf_refuses_nine_buttons : ¬ { Params.specExample with nBtn := 9 }.wf := by decide
theorem test_wf_refuses_power_button_outside : ¬ { Params.specExample with pwrBtn := 8 }.wf := by decide
theorem test_wf_refuses_empty_time : ¬ { Params.specExample with dtBytes := 0 }.wf := by decide
theorem test_wf_refuses_offset : ¬ { Params.specExample with vOff := 65281 }.wf := by decide
theorem test_wf_refuses_tick_zero : ¬ { Params.specExample with tickMs := 0 }.wf := by decide
theorem test_wf_refuses_debounce : ¬ { Params.specExample with debounceTicks := 256 }.wf := by decide
theorem test_wf_refuses_wake_hold_zero : ¬ { Params.specExample with wakeHoldTicks := 0 }.wf := by decide
theorem test_wf_refuses_timeout_not_above_hold : ¬ { Params.specExample with wakeTimeoutTicks := 40 }.wf := by decide
theorem test_wf_refuses_long_press : ¬ { Params.specExample with longPressTicks := 65535 }.wf := by decide
theorem test_wf_refuses_period_zero : ¬ { Params.specExample with analogPeriodTicks := 0 }.wf := by decide
theorem test_wf_refuses_short_clock : (Instr.setClock [1, 2, 3]).wf 4 = false := by decide
theorem test_wf_refuses_long_alarm : (Instr.setAlarm [1, 2, 3, 4, 5]).wf 4 = false := by decide
theorem test_wf_refuses_high_button_bits :
    (Event.main 0x10 0 false).wf { Params.specExample with nBtn := 4 } = false := by decide
theorem test_wf_refuses_short_time_input : (Event.clockAdvance [1]).wf Params.specExample = false := by decide
theorem test_wf_refuses_unsorted_memory : Memory.wf [(2, 1), (1, 1)] = false := by decide
theorem test_wf_refuses_listed_zero : Memory.wf [(1, 0)] = false := by decide

/-! ### Decoding: every message (R121) and every condition (R130), the words from the spec -/

theorem test_decode_nop : decodeMessage 4 [0x00] = .ok .nop := by decide
theorem test_decode_reset : decodeMessage 4 [0x01] = .ok .reset := by decide
theorem test_decode_info : decodeMessage 4 [0x02] = .ok .info := by decide
theorem test_decode_recStart : decodeMessage 4 [0x03] = .ok .recStart := by decide
theorem test_decode_recStop : decodeMessage 4 [0x04] = .ok .recStop := by decide
theorem test_decode_setBrightness : decodeMessage 4 [0x05, 0x80, 0xFF] = .ok (.setBrightness 0x80) := by decide
theorem test_decode_setClock :
    decodeMessage 4 [0x06, 0x11, 0x22, 0x33, 0x44] = .ok (.setClock [0x11, 0x22, 0x33, 0x44]) := by decide
theorem test_decode_setAlarm :
    decodeMessage 4 [0x07, 0x00, 0x00, 0x10, 0x00] = .ok (.setAlarm [0x00, 0x00, 0x10, 0x00]) := by decide
theorem test_decode_haptic : decodeMessage 4 [0x08, 0x40, 0x0A] = .ok (.haptic 0x40 0x0A) := by decide
theorem test_decode_hapticAck : decodeMessage 4 [0x09] = .ok .hapticAck := by decide
theorem test_decode_hapticFail : decodeMessage 4 [0x0A] = .ok .hapticFail := by decide
theorem test_decode_powerDown : decodeMessage 4 [0x0B] = .ok .powerDown := by decide
theorem test_decode_unknown : decodeMessage 4 [0x0C] = .error .unknownOrdinal := by decide
theorem test_decode_truncated : decodeMessage 4 [0x06, 0x11, 0x22, 0x33] = .error .truncatedPayload := by decide
/-- B12: DTS wins over DRX. -/
theorem test_decode_dts : decodeBus 0b11000 0xAA = .dts := by decide
theorem test_decode_drx : decodeBus 0b01111 0x44 = .drx 0x44 := by decide
/-- B13: SOR wins over SOW. -/
theorem test_decode_sor : decodeBus 0b00110 0x00 = .sor := by decide
/-- B14: SOW wins over EOT. -/
theorem test_decode_sow : decodeBus 0b00011 0x00 = .sow := by decide
theorem test_decode_eot : decodeBus 0b00001 0x00 = .eot := by decide
theorem test_decode_other : decodeBus 0b00000 0x00 = .other := by decide

/-! The opcode table's words: the first byte in bits 7..0, a condition vector in fewer than 8 bits (log 8). -/

theorem test_table_haptic : decodeTableWord 24 0x0A4008 = some (.haptic 0x40 0x0A) := by decide
theorem test_table_setClock :
    decodeTableWord 40 0x4433221106 = some (.setClock [0x11, 0x22, 0x33, 0x44]) := by decide
theorem test_table_operands_zero : decodeTableWord 8 0x06 = some (.setClock [0, 0, 0, 0]) := by decide
theorem test_table_condition : decodeTableWord 5 0b00110 = some .sor := by decide
theorem test_table_dts_in_a_byte : decodeTableWord 8 0x10 = some .dts := by decide
theorem test_table_refuses : decodeTableWord 8 0xFF = none := by decide
theorem test_fetch_message :
    after (step (State.reset.withFetchWord 16 0x8005)) (fun t => (t.brightness, t.cmdPending)) = some (0x80, false) := by
  decide
theorem test_fetch_condition :
    after (step (State.reset.withFetchWord 5 0b00010)) (fun t => (t.busState, t.out.resp)) =
      some (.receivingCommand, some .ack) := by decide

/-! ### The messages -/

/-- M1 -/
theorem test_nop_is_no_contact :
    after (serving [0x00] wakingState) (fun t => (t.status, t.irq, t.cmdPending, t.wakeTo)) =
      some (0x01, false, false, 2950) := by decide
/-- M2 -/
theorem test_info_is_contact :
    after (serving [0x02] wakingState) (fun t => (t.status, t.irq, t.wakeTo, t.confirmed)) =
      some (0x03, true, 0, false) := by decide
/-- M25 -/
theorem test_info_does_not_wake :
    after (serving [0x02] State.reset) (fun t => (t.status, t.irq)) = some (0x00, false) := by decide
/-- M3 -/
theorem test_recStart : after (serving [0x03] onState) (fun t => (t.status, t.irq)) = some (0x0B, true) := by decide
/-- M4 -/
theorem test_recStart_again :
    after (serving [0x03] { onState with status := 0x0B }) (fun t => (t.status, t.irq)) = some (0x0B, false) := by decide
/-- M5 -/
theorem test_recStop :
    after (serving [0x04] { onState with status := 0x0B }) (fun t => (t.status, t.irq)) = some (0x03, true) := by decide
/-- M7 -/
theorem test_setBrightness :
    after (serving [0x05, 0x80] { onState with brightness := 0x10 }) (fun t => (t.brightness, t.irq)) =
      some (0x80, false) := by decide
/-- M6 -/
theorem test_setBrightness_truncated :
    after (serving [0x05] { wakingState with brightness := 0x10 })
      (fun t => (t.brightness, t.status, t.msgDropCnt, t.msgErrLast)) = some (0x10, 0x01, 1, 5) := by decide
/-- M9 -/
theorem test_setClock :
    after (serving [0x06, 0x11, 0x22, 0x33, 0x44] onState) (fun t => (t.time, t.irq)) =
      some ([0x11, 0x22, 0x33, 0x44], false) := by decide
/-- M10 -/
theorem test_setClock_truncated :
    after (serving [0x06, 0x11, 0x22, 0x33] onState) (fun t => (t.time, t.msgDropCnt, t.msgErrLast)) =
      some ([0, 0, 0, 0], 1, 5) := by decide
/-- M11 -/
theorem test_setAlarm :
    after (serving [0x07, 0x00, 0x00, 0x10, 0x00] onState) (fun t => (t.alarmDt, t.status)) =
      some ([0x00, 0x00, 0x10, 0x00], 0x03) := by decide
/-- M13 -/
theorem test_haptic :
    after (serving [0x08, 0x40, 0x0A] onState) (fun t => (t.out.hapticReq, t.hapticActive)) =
      some (some (0x40, 0x0A), true) := by decide
/-- M15 -/
theorem test_hapticAck :
    after (serving [0x09] wakingState) (fun t => (t.status, t.msgDropCnt, t.msgErrLast)) = some (0x01, 1, 6) := by decide
/-- M16 -/
theorem test_hapticFail :
    after (serving [0x0A] onState) (fun t => (t.msgDropCnt, t.msgErrLast, t.cmdPending)) = some (1, 6, false) := by decide
/-- M24 -/
theorem test_drop_count_saturates :
    after (serving [0x0C] { onState with msgDropCnt := 0xFF }) (fun t => (t.msgDropCnt, t.msgErrLast)) =
      some (0xFF, 4) := by decide
/-- M19 -/
theorem test_powerDown :
    after (serving [0x0B] onState) (fun t => (t.status, t.irq, t.railEn)) = some (0x04, true, true) := by decide
/-- M22 -/
theorem test_powerDown_while_waking :
    after (serving [0x0B] wakingState) (fun t => (t.status, t.irq, t.wakeTo, t.confirmed)) =
      some (0x04, true, 0, false) := by decide
/-- M23 -/
theorem test_reset_message :
    after (serving [0x01] { onState with status := 0x2B, brightness := 0x80, busErrCnt := 7 })
      (fun t => (t.record, t.railEn, t.brightness, t.busErrCnt, Memory.readN t.ib 0 5)) =
      some (List.replicate 10 0, false, 0, 0, List.replicate 5 0) := by decide

/-! ### The bus conditions -/

/-- B1 -/
theorem test_sor :
    after (strobe 0b00100 0 { busState with irq := true, txCur := 7 })
      (fun t => (t.out.resp, t.irq, t.txCur, t.busState)) = some (some .ack, false, 0, .sendingState) := by decide
/-- B8: a read start inside a write ends the write. -/
theorem test_sor_ends_write :
    after (strobe 0b00100 0 { busState with busState := .receivingCommand, rxLen := 1 })
      (fun t => (t.cmdPending, t.rxLen, t.busState)) = some (true, 1, .sendingState) := by decide
/-- B12 -/
theorem test_dts :
    after (strobe 0b11000 0 { busState with busState := .sendingState, txCur := 4 })
      (fun t => (t.out.resp, t.txCur)) = some (some (.data 0x82), 5) := by decide
/-- B16 -/
theorem test_dts_stray :
    after (strobe 0b10000 0 { busState with busState := .receivingCommand, rxLen := 2 })
      (fun t => (t.out.resp, t.rxLen, t.busState, t.busErrCnt, t.busErrLast)) =
      some (some .complete, 0, .idle, 1, 2) := by decide
/-- B6: the byte that fills the buffer. -/
theorem test_drx_fills :
    after (strobe 0b01000 0x44 { busState with busState := .receivingCommand, rxLen := 4 })
      (fun t => (t.out.resp, Memory.read t.ib 4, t.rxLen, t.cmdPending, t.busState)) =
      some (some .complete, 0x44, 5, true, .idle) := by decide
/-- B17 -/
theorem test_drx_stray :
    after (strobe 0b01000 0xAA { busState with busState := .sendingState, txCur := 3 })
      (fun t => (t.out.resp, t.txCur, Memory.readN t.ib 0 5, t.busState, t.busErrCnt, t.busErrLast)) =
      some (some .nack, 3, [0, 0, 0, 0, 0], .idle, 1, 3) := by decide
/-- B9 -/
theorem test_sow_refused :
    after (strobe 0b00010 0 { busState with busState := .receivingCommand, rxLen := 1 })
      (fun t => (t.out.resp, t.cmdPending, t.rxLen, t.busState)) = some (some .nack, true, 1, .idle) := by decide
/-- B21 -/
theorem test_sow :
    after (strobe 0b00011 0 { busState with busState := .sendingState, txCur := 5, rxLen := 3 })
      (fun t => (t.out.resp, t.busState, t.rxLen, t.txCur)) = some (some .ack, .receivingCommand, 0, 5) := by decide
/-- B4 -/
theorem test_eot :
    after (strobe 0b00001 0 { busState with busState := .receivingCommand, rxLen := 2 })
      (fun t => (t.out.resp, t.cmdPending, t.rxLen, t.busState)) = some (some .ack, true, 2, .idle) := by decide
/-- B7 -/
theorem test_eot_empty_write :
    after (strobe 0b00001 0 { busState with busState := .receivingCommand })
      (fun t => (t.cmdPending, t.busErrCnt, t.busState)) = some (false, 0, .idle) := by decide
/-- B18 -/
theorem test_other_keeps_pending :
    after (strobe 0b00000 0 { busState with cmdPending := true, rxLen := 2 })
      (fun t => (t.out.resp, t.cmdPending, t.rxLen, t.busErrCnt, t.busErrLast)) =
      some (some .complete, true, 2, 1, 1) := by decide
/-- B19 -/
theorem test_other_saturates :
    after (strobe 0b00000 0 { busState with busErrCnt := 0xFF }) (fun t => (t.busErrCnt, t.busErrLast)) =
      some (0xFF, 1) := by decide

/-- The record of the bus vectors, byte by byte. -/
theorem test_record_layout :
    busState.record = [0x03, 0x00, 0x80, 0x7F, 0x82, 0x57, 0x11, 0x22, 0x33, 0x44] := by decide

/-! ### Supervisor, sampler, tick, multiplexer, codec -/

/-- S4: released at 39 < 40. -/
theorem test_release_below_threshold :
    after (mainIn .supervisor 0 0 false
        { wakingState with confirmed := false, pwrTrack := true, holdCnt := 39, pwrPrev := true, irq := false })
      (fun t => (t.status, t.railEn, t.irq)) = some (0x00, false, true) := by decide
/-- S5: the wake timeout. -/
theorem test_wake_timeout :
    after (mainIn .supervisor 0 0 false { wakingState with wakeTo := 0 })
      (fun t => (t.status, t.railEn, t.confirmed, t.irq)) = some (0x00, false, false, true) := by decide
/-- S7: a long press in `On`. -/
theorem test_long_press :
    after (mainIn .supervisor 0 0 false
        { onState with pwrTrack := true, holdCnt := 300, pwrPrev := true, buttons := 0x01 })
      (fun t => (t.status, t.railEn, t.pwrPrev, t.pwrTrack)) = some (0x00, false, true, false) := by decide
/-- S11 -/
theorem test_release_signal_ignored_in_on :
    after (mainIn .supervisor 0 0 true onState) (fun t => (t.status, t.railEn)) = some (0x03, true) := by decide
/-- T4 -/
theorem test_sample_buttons :
    after (mainIn .buttons 0x04 0 false { State.reset with buttons := 0x05 })
      (fun t => (t.buttons, t.btnTimer, t.irq)) = some (0x04, [3, 0, 0, 0, 0, 0, 0, 0], true) := by decide
/-- S14 -/
theorem test_hold_saturates :
    after (step { wakingState with pwrTrack := true, holdCnt := 65535, buttons := 0x01, events := [.tick] })
      (fun t => (t.holdCnt, t.wakeTo)) = some (65535, 2949) := by decide
/-- A5: -39 half degrees, two's complement. -/
theorem test_sample_temperature :
    after (mainIn .analog 0 0xFFD9 false { onState with muxSel := .temp, sampleDue := true })
      (fun t => (t.temp, t.muxSel, t.irq, t.sampleDue)) = some (0x01, .joyX, true, false) := by decide
/-- A8: 65535, unsigned. -/
theorem test_sample_voltage :
    after (mainIn .analog 0 0xFFFF false { onState with muxSel := .vbatt, sampleDue := true })
      (fun t => (t.vbatt, t.muxSel)) = some (0xFF, .temp) := by decide
/-- M14 -/
theorem test_haptic_done :
    after (step { onState with hapticActive := true, events := [.hapticDone false] })
      (fun t => (t.out.notify, t.hapticActive)) = some (some 0x0A, false) := by decide
/-- M12 -/
theorem test_env_flag :
    after (step { onState with events := [.setFlag .charging true] }) (fun t => (t.status, t.irq)) =
      some (0x23, true) := by decide
/-- K4, K5, K8, K9 -/
theorem test_voltage_code :
    [encV Params.specExample 200, encV Params.specExample 201, encV Params.specExample 455,
      encV Params.specExample 456] = [0x00, 0x01, 0xFF, 0xFF] := by decide
/-- K28, K29, K30, K31 -/
theorem test_pack_status :
    [packStatus ⟨.on, false, false, true, false, false⟩, packStatus ⟨.sleep, true, true, true, true, true⟩,
      packStatus ⟨.powerDown, true, false, false, false, true⟩,
      packStatus ⟨.wakeUp, false, false, false, false, false⟩] = [0x23, 0xF8, 0x8C, 0x01] := by decide

/-! ### Witnesses: for every statement with hypotheses, concrete values that meet them all -/

/-- A result read by `after` is a next state. -/
theorem next_of_after {α : Type} {r : Result} {f : State → α} {v : α} (h : after r f = some v) :
    ∃ t, r = .next t ∧ f t = v := by
  cases r with
  | next t => exact ⟨t, rfl, by simpa [after, nextOf] using h⟩
  | fault _ => simp [after, nextOf] at h
  | refused _ => simp [after, nextOf] at h

/-- The invariants of a state with eight buttons, from decidable checks. -/
theorem invariants_of_checks {s : State} (hn : s.params.nBtn = 8)
    (h1 : s.params.wf ∧ s.time.length = s.params.dtBytes ∧ s.alarmDt.length = s.params.dtBytes ∧
      s.btnTimer.length = s.params.nBtn ∧ Memory.wf s.ib = true ∧ Memory.below s.params.cap s.ib = true ∧
      s.txCur ≤ s.params.srBytes ∧ s.rxLen ≤ s.params.cap)
    (h2 : (s.cmdPending = true → s.busState ≠ .receivingCommand ∧ 1 ≤ s.rxLen) ∧
      (s.busState = .receivingCommand → s.rxLen < s.params.cap) ∧
      (s.mode = some .sleep ∨ s.mode = some .wakeUp ∨ s.mode = some .on ∨ s.mode = some .powerDown) ∧
      s.railEn = s.samplingEn ∧ (s.samplingEn = true ↔ s.mode ≠ some .sleep))
    (h3 : (s.confirmed = true → s.mode = some .wakeUp) ∧ (s.wakeTo ≠ 0#16 → s.mode = some .wakeUp) ∧
      (s.pwrTrack = true → s.mode = some .wakeUp ∨ s.mode = some .on) ∧
      (∀ t ∈ s.btnTimer, t.toNat ≤ s.params.debounceTicks) ∧ (s.sampleDue = true → s.samplingEn = true)) :
    Invariants s :=
  ⟨h1.1, h1.2.1, h1.2.2.1, h1.2.2.2.1, h1.2.2.2.2.1, h1.2.2.2.2.2.1, h1.2.2.2.2.2.2.1, h1.2.2.2.2.2.2.2, h2.1, h2.2.1,
    h2.2.2.1, h2.2.2.2.1, h2.2.2.2.2, fun _ hi => BitVec.getLsbD_of_ge _ _ (hn ▸ hi), h3.1, h3.2.1, h3.2.2.1, h3.2.2.2.1,
    h3.2.2.2.2⟩

theorem witness_DecodeOfEncode : (Instr.setClock [0x11, 0x22, 0x33, 0xFF]).wf 4 = true ∧
    (Instr.setAlarm [0]).wf 1 = true ∧ (Instr.haptic 0xFF 0x00).wf 4 = true ∧ (Instr.drx 0xFF).wf 4 = true := by decide

theorem witness_MessageLengthDecidesDecoding :
    (Instr.haptic 0x40 0x0A).wf 4 = true ∧ encode (.haptic 0x40 0x0A) = .message [0x08, 0x40, 0x0A] ∧ 0 < 2 ∧
      2 < [0x08#8, 0x40#8, 0x0A#8].length := by decide

/-- Every clause at the ends of its range: the ordinals 0x0B and 0x0C, a length one short and a length just enough. -/
theorem witness_ValidationOrder :
    0x0C ≤ (byteAt [0x0C#8] 0).toNat ∧ 0x0C ≤ (byteAt [0xFF#8] 0).toNat ∧ byteAt [0x09#8] 0 = 0x09#8 ∧
      byteAt [0x0A#8] 0 = 0x0A#8 ∧ messageSize 4 (byteAt [0x06#8, 0, 0, 0, 0] 0) = some 5 ∧ 4 < 5 ∧ 5 ≤ 5 ∧
      messageSize 4 (byteAt [0x0B#8] 0) = some 1 ∧ 0 < 1 ∧ byteAt [0x0B#8] 0 ≠ 0x09#8 ∧
      byteAt [0x0B#8] 0 ≠ 0x0A#8 := by decide

/-- The largest vector of each row of R130. -/
theorem witness_condition_rows :
    (0b11111#5 &&& 0b10000 = 0b10000) ∧ (0b01111#5 &&& 0b11000 = 0b01000) ∧ (0b00111#5 &&& 0b11100 = 0b00100) ∧
      (0b00011#5 &&& 0b11110 = 0b00010) ∧ (0b00001#5 &&& 0b11111 = 0b00001) ∧ (0b00000#5 &&& 0b11111 = 0b00000) := by
  decide

theorem witness_StepRunsDecodedCondition :
    ({ onState with events := [.bus 0b01000 0xAA] } : State).events = .bus 0b01000 0xAA :: [] := rfl

theorem witness_StepRunsDecodedMessage :
    (pending [0x05, 0x80] onState).events = .main 0x00 0x0000 false :: [] ∧
      (pending [0x05, 0x80] onState).mlPhase = .command ∧ (pending [0x05, 0x80] onState).cmdPending = true ∧
      decodeBuffer (pending [0x05, 0x80] onState).params.dtBytes
        (Memory.readN (pending [0x05, 0x80] onState).ib 0 (pending [0x05, 0x80] onState).params.cap)
        (pending [0x05, 0x80] onState).rxLen = .ok (.setBrightness 0x80) := by decide

/-- The first unknown ordinal and a command one byte short. -/
theorem witness_UndecodableCommandIsDropped :
    ∀ x ∈ [([0x0C#8], DecodeError.unknownOrdinal), ([0x08#8, 0x40#8], DecodeError.truncatedPayload)],
      (pending x.1 onState).events = .main 0x00 0x0000 false :: [] ∧ (pending x.1 onState).mlPhase = .command ∧
        (pending x.1 onState).cmdPending = true ∧
        decodeBuffer (pending x.1 onState).params.dtBytes
          (Memory.readN (pending x.1 onState).ib 0 (pending x.1 onState).params.cap) (pending x.1 onState).rxLen =
            .error x.2 := by decide

/-- The command phase of the main loop with no command pending. -/
def idleCommand : State := { onState with mlPhase := .command, events := [.main 0x00 0x0000 false] }

theorem witness_IdleCommandPhaseOnlyAdvances :
    idleCommand.events = .main 0x00 0x0000 false :: [] ∧ idleCommand.mlPhase = .command ∧
      idleCommand.cmdPending = false := by decide

theorem witness_StepServesNextInput : ({ onState with events := [.tick] } : State).events = .tick :: [] ∧
    onState.events = [] := by decide

/-- A tick in `WakeUp` meets the hypotheses of the statements about every step. -/
def tickWhileWaking : State := { wakingState with events := [.tick] }

theorem invariants_tickWhileWaking : Invariants tickWhileWaking :=
  invariants_of_checks (by decide) (by decide) (by decide) (by decide)

theorem witness_EveryStepKeepsInvariants : Invariants tickWhileWaking ∧ ∃ t, step tickWhileWaking = .next t :=
  ⟨invariants_tickWhileWaking, _, rfl⟩

theorem witness_InvariantStatesAlwaysStep : Invariants tickWhileWaking := invariants_tickWhileWaking

theorem witness_ResetMeetsInvariants : Params.specExample.wf := by decide

theorem witness_ParametersNeverChange : ∃ t, step tickWhileWaking = .next t := ⟨_, rfl⟩

/-- A read just begun, at the last byte, and past it. -/
theorem witness_DtsSendsLiveByte :
    ∀ k ∈ [0, 9, 10], ({ busState with busState := .sendingState, txCur := k } : State).busState = .sendingState := by
  decide
theorem witness_DtsSendsLiveByte_ends :
    ({ busState with txCur := 9 } : State).txCur < busState.params.srBytes ∧
      busState.params.srBytes ≤ ({ busState with txCur := 10 } : State).txCur := by decide

theorem witness_StrayDtsAborts : ({ busState with busState := .receivingCommand } : State).busState ≠ .sendingState ∧
    busState.busState ≠ .sendingState := by decide

/-- Accepted in `Idle`; refused while pending, and where the write it ends makes one pending. -/
theorem witness_SowAcceptsOnlyWhenNothingPending :
    ¬ (busState.cmdPending = true ∨ (busState.busState = .receivingCommand ∧ 1 ≤ busState.rxLen)) ∧
      ({ busState with cmdPending := true } : State).cmdPending = true ∧
      ({ busState with busState := .receivingCommand, rxLen := 1 } : State).busState = .receivingCommand ∧
      1 ≤ ({ busState with busState := .receivingCommand, rxLen := 1 } : State).rxLen := by decide

/-- An empty buffer, one byte short of full, and (for the fault) full. -/
theorem witness_DrxStoresByte :
    ∀ k ∈ [0, 3, 4],
      ({ busState with busState := .receivingCommand, rxLen := k } : State).busState = .receivingCommand ∧
        ({ busState with busState := .receivingCommand, rxLen := k } : State).rxLen < busState.params.cap ∧
        Memory.wf busState.ib = true := by decide
theorem witness_DrxPastCapacityFaults :
    ({ busState with busState := .receivingCommand, rxLen := 5 } : State).busState = .receivingCommand ∧
      busState.params.cap ≤ ({ busState with busState := .receivingCommand, rxLen := 5 } : State).rxLen := by decide

theorem witness_StrayDrxRefused : ({ busState with busState := .sendingState } : State).busState ≠ .receivingCommand ∧
    busState.busState ≠ .receivingCommand := by decide

theorem witness_BusConditionsWriteBusRegistersOnly :
    (∃ c rx, encode .eot = .condition c rx) ∧ ({ busState with cmdPending := true } : State).cmdPending = true ∧
      ({ busState with cmdPending := true } : State).busState ≠ .receivingCommand ∧
      ∃ t, exec .eot { busState with cmdPending := true } = .next t :=
  ⟨⟨_, _, rfl⟩, by decide, by decide, _, rfl⟩

theorem witness_RecordingMessagesSetFlag :
    ((Instr.recStart = .recStart ∧ true = true) ∨ (Instr.recStart = .recStop ∧ true = false)) ∧
      ((Instr.recStop = .recStart ∧ false = true) ∨ (Instr.recStop = .recStop ∧ false = false)) := by decide

theorem witness_SetClockWritesTime : [0x11#8, 0x22#8, 0x33#8, 0x44#8].length = onState.params.dtBytes := by decide
theorem witness_SetAlarmWritesRegister : [0x00#8, 0x00#8, 0x10#8, 0x00#8].length = onState.params.dtBytes := by decide
theorem witness_HapticRepliesFromHostDropped :
    (Instr.hapticAck = .hapticAck ∨ Instr.hapticAck = .hapticFail) ∧
      (Instr.hapticFail = .hapticAck ∨ Instr.hapticFail = .hapticFail) := by decide

/-- The supervisor's phase next, the power button held. -/
def heldIn (s : State) : State := { s with mlPhase := .supervisor, buttons := 0x01 }

/-- Both clauses: the press edge; released, and still held. -/
theorem witness_PressInSleepWakes :
    ((heldIn State.reset).mlPhase = .supervisor ∧ (heldIn State.reset).mode = some .sleep ∧
        PressEdge (heldIn State.reset)) ∧
      ¬ PressEdge { State.reset with mlPhase := .supervisor } ∧
      ¬ PressEdge { heldIn State.reset with pwrPrev := true } := by
  unfold PressEdge
  decide

/-- The status byte `st` in the supervisor's phase, the press held for `n` ticks, the timeout at `w`. -/
def wakingFor (n w : Half) (btns st : Byte) : State :=
  { wakingState with
    mlPhase := .supervisor, confirmed := false, holdCnt := n, wakeTo := w, buttons := btns, status := st }

/-- In `WakeUp`: released one tick short of the threshold, held at the threshold, timed out; and `PowerUp`. -/
theorem witness_WakeUpConfirmsFallsBackOrTimesOut :
    ((wakingFor 39 2950 0x00 0x01).mlPhase = .supervisor ∧ (wakingFor 39 2950 0x00 0x01).mode = some .wakeUp) ∧
      ((wakingFor 40 2950 0x01 0x01).mlPhase = .supervisor ∧ (wakingFor 40 2950 0x01 0x01).mode = some .wakeUp) ∧
      ((wakingFor 40 0 0x01 0x01).mlPhase = .supervisor ∧ (wakingFor 40 0 0x01 0x01).mode = some .wakeUp) ∧
      ((wakingFor 0 1 0x01 0x02).mlPhase = .supervisor ∧ (wakingFor 0 1 0x01 0x02).mode = some .powerUp) := by decide

/-- `On` in the supervisor's phase, a press tracked for `n` ticks. -/
def trackedIn (n : Half) (btns : Byte) : State :=
  { onState with mlPhase := .supervisor, buttons := btns, pwrPrev := true, pwrTrack := true, holdCnt := n }

/-- The clause of the press edge. -/
theorem witness_OnPressesRequestOrForcePowerOff_edge :
    (heldIn onState).mlPhase = .supervisor ∧ (heldIn onState).mode = some .on ∧
      1 ≤ (heldIn onState).params.longPressTicks ∧ PressEdge (heldIn onState) :=
  ⟨rfl, rfl, by decide, by decide, rfl⟩

/-- The clauses of a tracked press: at the threshold; released one tick short of it; held one tick short of it. -/
theorem witness_OnPressesRequestOrForcePowerOff_tracked :
    ((trackedIn 300 0x01).mlPhase = .supervisor ∧ (trackedIn 300 0x01).mode = some .on ∧
        (trackedIn 300 0x01).pwrPrev = true ∧ (trackedIn 300 0x01).pwrTrack = true ∧
        (trackedIn 300 0x01).params.longPressTicks ≤ (trackedIn 300 0x01).holdCnt.toNat) ∧
      ((trackedIn 299 0x00).mode = some .on ∧ (trackedIn 299 0x00).buttons.getLsbD 0 = false ∧
        (trackedIn 299 0x00).holdCnt.toNat < (trackedIn 299 0x00).params.longPressTicks) ∧
      ((trackedIn 299 0x01).mode = some .on ∧ (trackedIn 299 0x01).buttons.getLsbD 0 = true ∧
        (trackedIn 299 0x01).holdCnt.toNat < (trackedIn 299 0x01).params.longPressTicks) := by
  refine ⟨⟨rfl, rfl, rfl, rfl, Nat.le_refl 300⟩, ⟨rfl, rfl, Nat.lt_succ_self 299⟩, ⟨rfl, rfl, Nat.lt_succ_self 299⟩⟩

theorem witness_PowerDownEndsOnlyByRelease :
    (heldIn powerDownState).mlPhase = .supervisor ∧ (heldIn powerDownState).mode = some .powerDown := by decide

/-- A step in `s` changes the mode to `m`, and `s` meets the invariants. -/
def ChangesTo (s : State) (m : Mode) : Prop :=
  Invariants s ∧ ∃ t, step s = .next t ∧ t.mode = some m ∧ t.mode ≠ s.mode

/-- One witness for each line of the table: the press, the early release, the timeout, the contact, the message, the
short press, the long press, the release signal, the reset. -/
theorem witness_ModeChangesOnlyByTheTable_press :
    ChangesTo { heldIn State.reset with events := [.main 0x01 0 false] } .wakeUp :=
  ⟨invariants_of_checks (by decide) (by decide) (by decide) (by decide), _, rfl, by decide, by decide⟩
theorem witness_ModeChangesOnlyByTheTable_early_release :
    ChangesTo { heldIn wakingState with
      confirmed := false, buttons := 0, holdCnt := 39, pwrTrack := true, events := [.main 0x00 0 false] } .sleep :=
  ⟨invariants_of_checks (by decide) (by decide) (by decide) (by decide), _, rfl, by decide, by decide⟩
theorem witness_ModeChangesOnlyByTheTable_timeout :
    ChangesTo { heldIn wakingState with wakeTo := 0, events := [.main 0x00 0 false] } .sleep :=
  ⟨invariants_of_checks (by decide) (by decide) (by decide) (by decide), _, rfl, by decide, by decide⟩
theorem witness_ModeChangesOnlyByTheTable_contact : ChangesTo (pending [0x02] wakingState) .on :=
  ⟨invariants_of_checks (by decide) (by decide) (by decide) (by decide), _, rfl, by decide, by decide⟩
theorem witness_ModeChangesOnlyByTheTable_message : ChangesTo (pending [0x0B] onState) .powerDown :=
  ⟨invariants_of_checks (by decide) (by decide) (by decide) (by decide), _, rfl, by decide, by decide⟩
theorem witness_ModeChangesOnlyByTheTable_message_while_waking : ChangesTo (pending [0x0B] wakingState) .powerDown :=
  ⟨invariants_of_checks (by decide) (by decide) (by decide) (by decide), _, rfl, by decide, by decide⟩
theorem witness_ModeChangesOnlyByTheTable_short_press :
    ChangesTo { trackedIn 299 0x00 with events := [.main 0x00 0 false] } .powerDown :=
  ⟨invariants_of_checks (by decide) (by decide) (by decide) (by decide), _, rfl, by decide, by decide⟩
theorem witness_ModeChangesOnlyByTheTable_long_press :
    ChangesTo { trackedIn 300 0x01 with events := [.main 0x01 0 false] } .sleep :=
  ⟨invariants_of_checks (by decide) (by decide) (by decide) (by decide), _, rfl, by decide, by decide⟩
theorem witness_ModeChangesOnlyByTheTable_release_signal :
    ChangesTo { heldIn powerDownState with events := [.main 0x01 0 true] } .sleep :=
  ⟨invariants_of_checks (by decide) (by decide) (by decide) (by decide), _, rfl, by decide, by decide⟩
theorem witness_ModeChangesOnlyByTheTable_reset : ChangesTo { onState with events := [.reset] } .sleep :=
  ⟨invariants_of_checks (by decide) (by decide) (by decide) (by decide), _, rfl, by decide, by decide⟩

/-- Button 2 is unlocked and differs, button 0 is locked, button 7 is the last. -/
theorem witness_ButtonSampleAcceptsUnlocked :
    ({ onState with btnTimer := [3, 0, 0, 0, 0, 0, 0, 0] } : State).mlPhase = .buttons ∧
      [3#8, 0#8, 0#8, 0#8, 0#8, 0#8, 0#8, 0#8].length = onState.params.nBtn ∧ onState.params.nBtn ≤ 8 ∧ 7 < 8 ∧
      ([3#8, 0#8, 0#8, 0#8, 0#8, 0#8, 0#8, 0#8].getD 7 0#8 = 0#8 ∧
        (0x85#8).getLsbD 7 ≠ onState.buttons.getLsbD 7) := by decide

theorem witness_AnalogSampleEncodesChannel :
    ({ onState with mlPhase := .analog, sampleDue := true } : State).mlPhase = .analog ∧ onState.samplingEn = true := by
  decide

theorem witness_EnvironmentStepsWriteTheirRegisters : [0x12#8, 0x00#8, 0x00#8, 0x00#8].length = onState.params.dtBytes := by
  decide

theorem witness_LineClearedOnlyByReadStartOrReset :
    ∃ t, step { onState with irq := true, events := [.bus 0b00100 0] } = .next t ∧
      ({ onState with irq := true, events := [.bus 0b00100 0] } : State).irq = true ∧ t.irq = false :=
  ⟨_, rfl, by decide, by decide⟩

/-- The first and the last byte of the range: the status byte and the temperature byte. -/
theorem witness_ObservableChangeAssertsLine :
    (∃ t, step { onState with events := [.setFlag .usb true] } = .next t ∧ 0 < 6 ∧
      t.recordByte 0 ≠ ({ onState with events := [.setFlag .usb true] } : State).recordByte 0) ∧
    ∃ t, step { onState with
        muxSel := .temp, sampleDue := true, mlPhase := .analog, events := [.main 0 47 false] } = .next t ∧ 5 < 6 ∧
      t.recordByte 5 ≠ onState.recordByte 5 :=
  ⟨⟨_, rfl, by decide, by decide⟩, _, rfl, by decide, by decide⟩

theorem witness_PendingFlagIsTheHandoff :
    (∃ t, step { onState with busState := .receivingCommand, rxLen := 1, events := [.bus 0b00001 0] } = .next t ∧
      onState.cmdPending = false ∧ t.cmdPending = true) ∧
    ∃ t, step (pending [0x00] onState) = .next t ∧ (pending [0x00] onState).cmdPending = true ∧ t.cmdPending = false :=
  ⟨⟨_, rfl, by decide, by decide⟩, _, rfl, by decide, by decide⟩

theorem witness_ReadTransactionReturnsRecord : busState.time.length = busState.params.dtBytes := by decide

theorem witness_PendingCommandRefusesWrites : ({ onState with cmdPending := true, rxLen := 1 } : State).cmdPending = true := by
  decide

theorem invariants_onState : Invariants onState :=
  invariants_of_checks (by decide) (by decide) (by decide) (by decide)

/-- The shortest message and one that fills the buffer. -/
theorem witness_WrittenMessageIsDecoded :
    Invariants onState ∧ onState.cmdPending = false ∧ onState.busState ≠ .receivingCommand ∧
      Instr.info.wf onState.params.dtBytes = true ∧ encode .info = .message [0x02] ∧
      (Instr.setClock [1, 2, 3, 4]).wf onState.params.dtBytes = true ∧
      encode (.setClock [1, 2, 3, 4]) = .message [0x06, 1, 2, 3, 4] :=
  ⟨invariants_onState, by decide, by decide, by decide, by decide, by decide, by decide⟩

/-- One byte more than the capacity. -/
theorem witness_OverlongWriteKeepsFirstCapBytes :
    Invariants onState ∧ onState.cmdPending = false ∧ onState.busState ≠ .receivingCommand ∧
      onState.params.cap < [0x06#8, 1, 2, 3, 4, 5].length :=
  ⟨invariants_onState, by decide, by decide, by decide⟩

theorem witness_PendingCommandServedWithinFourMainSteps :
    (pending [0x02] onState).cmdPending = true ∧ (List.replicate 4 (Event.main 0 0 false)).length = 4 ∧
      ∀ e ∈ List.replicate 4 (Event.main 0 0 false), ∃ b a h, e = .main b a h :=
  ⟨by decide, by decide, fun _ he => ⟨_, _, _, List.eq_of_mem_replicate he⟩⟩

end Sys2Proof.Tests
end

section
/-! PROOFS. The scope of the model (`00_scope.md`): which input a step serves, the one stop of the model, and the parameters,
which no operation writes. For each operation one lemma says that it keeps the parameters; an agent's step is made of
these. -/

namespace Sys2Proof.Machine

/-! ### The operations keep the parameters (R8) -/

@[simp] theorem setFlag_params (f : Flag) (b : Bool) (s : State) : (setFlag f b s).1.params = s.params := by
  rw [setFlag_frame]

@[simp] theorem raise_params (c : Cause) (s : State) : (raise c s).params = s.params := by
  rw [raise_frame]

@[simp] theorem endWriteIfReceiving_params (s : State) : (endWriteIfReceiving s).params = s.params := by
  rw [endWriteIfReceiving_frame]

@[simp] theorem enterPowerDown_params (s : State) : (enterPowerDown s).params = s.params := by
  rw [enterPowerDown_frame]

@[simp] theorem contact_params (s : State) : (contact s).params = s.params := by
  rw [contact_frame]

/-- `Reset()` writes registers; the parameters are none (R360, log 1). -/
@[simp] theorem resetBlock_params (s : State) : (resetBlock s).params = s.params := rfl

@[simp] theorem buttonSample_params (raw : Byte) (s : State) : (buttonSample raw s).params = s.params := by
  rw [buttonSample_frame]

@[simp] theorem tick_params (s : State) : (tick s).params = s.params := by
  rw [tick_frame]

@[simp] theorem analogSample_params (a : Half) (s : State) : (analogSample a s).params = s.params := by
  rw [analogSample_frame]

@[simp] theorem superviseMode_params (press p rel : Bool) (s : State) :
    (superviseMode press p rel s).params = s.params := by
  rw [superviseMode_frame]

@[simp] theorem supervise_params (rel : Bool) (s : State) : (supervise rel s).params = s.params :=
  superviseMode_params _ _ rel s

@[simp] theorem sendNextByte_params (s : State) : (sendNextByte s).params = s.params := by
  rw [sendNextByte_frame]

@[simp] theorem byteStored_params (s : State) : (byteStored s).params = s.params := by
  rw [byteStored_frame]

@[simp] theorem envHapticDone_params (ok : Bool) (s : State) : (envHapticDone ok s).params = s.params := by
  unfold envHapticDone
  split <;> rfl

@[simp] theorem takeEvent_params (s : State) : (takeEvent s).params = s.params := by
  rw [takeEvent_frame]

/-! ### The agents keep the parameters (R8, R15) -/

/-- A result known to be one state keeps the parameters when that state does. -/
theorem params_of_next {s t u : State} (h : (.next u : Result) = .next t) (hu : u.params = s.params) :
    t.params = s.params := by
  cases h
  exact hu

/-- A served message keeps the parameters when its own effect does (R172). -/
theorem serve_params {effect : State → State} {s t : State} (h : serve effect s = .next t)
    (he : ∀ u, (effect u).params = u.params) : t.params = s.params := by
  have hu : (finishCommand (effect (contact s))).params = s.params := by
    rw [finishCommand_params, he, contact_params]
  exact params_of_next h hu

theorem dropWrongDirection_params {s t : State} (h : dropWrongDirection s = .next t) : t.params = s.params :=
  params_of_next h (raise_params _ s)

/-- The instructions of the opcode table keep the parameters. -/
theorem exec_params {i : Instr} {s t : State} (h : exec i s = .next t) : t.params = s.params := by
  cases i with
  | nop => exact params_of_next h (finishCommand_params s)
  | reset => exact serve_params h resetBlock_params
  | info => exact serve_params h (fun _ => rfl)
  | recStart =>
    simp only [exec, execRecStart] at h
    exact serve_params h (setFlag_params _ _)
  | recStop =>
    simp only [exec, execRecStop] at h
    exact serve_params h (setFlag_params _ _)
  | setBrightness v =>
    simp only [exec, execSetBrightness] at h
    exact serve_params h (fun _ => rfl)
  | setClock dt => exact serve_params h (writeTime_params dt)
  | setAlarm dt => exact serve_params h (writeAlarm_params dt)
  | haptic i d => exact serve_params h (startHaptic_params i d)
  | hapticAck => exact dropWrongDirection_params h
  | hapticFail => exact dropWrongDirection_params h
  | powerDown =>
    simp only [exec, execPowerDown] at h
    refine serve_params h (fun u => ?_)
    split
    · exact enterPowerDown_params u
    · rfl
  | dts =>
    simp only [exec, execDts] at h
    split at h
    · exact params_of_next h (sendNextByte_params s)
    · exact params_of_next h (raise_params _ s)
  | drx b =>
    obtain ⟨_, _, rfl⟩ | ⟨_, rfl⟩ := execDrx_cases h
    · exact byteStored_params _
    · exact raise_params _ s
  | sor => exact params_of_next h (endWriteIfReceiving_params s)
  | sow =>
    simp only [exec, execSow] at h
    split at h
    · exact params_of_next h (endWriteIfReceiving_params s)
    · exact params_of_next h (endWriteIfReceiving_params s)
  | eot => exact params_of_next h (endWriteIfReceiving_params s)
  | other => exact params_of_next h (raise_params _ s)

theorem commandService_params {s t : State} (h : commandService s = .next t) : t.params = s.params := by
  obtain ⟨_, rfl⟩ | ⟨_, e, _, rfl⟩ | ⟨_, i, _, hi⟩ := commandService_cases h
  · rfl
  · exact raise_params _ s
  · exact exec_params hi

theorem mainStep_params {b : Byte} {a : Half} {r : Bool} {s t : State} (h : mainStep b a r s = .next t) :
    t.params = s.params := by
  unfold mainStep at h
  split at h
  · exact params_of_next h (buttonSample_params b s)
  · exact params_of_next h (analogSample_params a s)
  · exact params_of_next h (supervise_params r s)
  · exact commandService_params h

theorem runEvent_params {e : Event} {s t : State} (h : runEvent e s = .next t) : t.params = s.params := by
  cases e with
  | bus c rx => exact exec_params h
  | tick => exact params_of_next h (tick_params s)
  | wake => exact params_of_next h rfl
  | main b a r => exact mainStep_params h
  | setFlag f b => exact params_of_next h (setFlag_params _ b s)
  | clockAdvance v => exact params_of_next h (writeTime_params v s)
  | hapticDone ok => exact params_of_next h (envHapticDone_params ok s)
  | reset => exact params_of_next h (resetBlock_params s)

theorem step_params {s t : State} (h : step s = .next t) : t.params = s.params :=
  (runEvent_params h).trans (takeEvent_params s)

/-! ### The one stop (R11, R83, log 6) -/

/-- Inside a write, a byte for an address at or above the capacity stops the model (R11). -/
theorem execDrx_fault {s : State} (b : Byte) (hr : s.busState = .receivingCommand) (hc : s.params.cap ≤ s.rxLen) :
    execDrx b s = .fault (.inboundOutOfRange s.rxLen 1) := by
  have hw : memWrite s s.rxLen [b] = .error (.inboundOutOfRange s.rxLen 1) := memWrite_error (Nat.lt_succ_of_le hc)
  simp only [execDrx, if_pos hr, hw]

end Sys2Proof.Machine

namespace Sys2Proof.Proofs

open Sys2Proof.Machine

/-- Settles O14: each operation keeps the parameters, and so does each agent's step (R8). -/
theorem parametersNeverChange : Obligations.ParametersNeverChange :=
  fun _ _ h => step_params h

/-- Settles O10: the two cases of the queue (R12, log 2). -/
theorem stepServesNextInput : Obligations.StepServesNextInput :=
  fun _ => ⟨fun _ _ h => step_of_cons h, step_of_nil⟩

/-- Settles O21: the byte's address is `rx_len`, where no inbound byte exists (R11, R83). -/
theorem drxPastCapacityFaults : Obligations.DrxPastCapacityFaults :=
  fun _ b hr hc => execDrx_fault b hr hc

end Sys2Proof.Proofs
end

section
/-! PROOFS. The state (`10_state.md`): the invariants of R48, the reset table of R49 and the ports of R61 to R66. For
each operation one lemma says that it keeps the invariants, and under which condition on the mode where it needs one;
an agent's step is made of these. A lemma lists the invariants whose registers the operation writes; the others are
those of the state before it. -/

namespace Sys2Proof

/-- The inbound buffer has room, so a write can start (R8). -/
theorem Params.cap_pos (p : Params) : 0 < p.cap := lt_of_lt_of_le (by decide) (le_max_left 3 (1 + p.dtBytes))

end Sys2Proof

namespace Sys2Proof.Machine

/-! ### The codes on the ports (R40, R131) -/

/-- Each channel has its own code (R40). -/
theorem Channel.code_inj {c d : Channel} : Channel.code c = Channel.code d ↔ c = d := by
  cases c <;> cases d <;> decide

/-- Each response has its own code (R131). -/
theorem Response.code_eq_zero {r : Response} : Response.code r = 0#2 ↔ r = .ack := by
  cases r <;> simp [Response.code]

theorem Response.code_eq_one {r : Response} : Response.code r = 1#2 ↔ r = .nack := by
  cases r <;> simp [Response.code]

theorem Response.code_eq_two {r : Response} : Response.code r = 2#2 ↔ ∃ b, r = .data b := by
  cases r <;> simp [Response.code]

theorem Response.code_eq_three {r : Response} : Response.code r = 3#2 ↔ r = .complete := by
  cases r <;> simp [Response.code]

/-- `DATA` alone carries a byte (R61, U4). -/
theorem Response.byte_eq_some {r : Response} {b : Byte} : Response.byte r = some b ↔ r = .data b := by
  cases r <;> simp [Response.byte]

/-- `bus_resp` shows the code of the step's response (R61, R131). -/
theorem State.ports_busResp_eq_some {s : State} {c : BitVec 2} :
    s.ports.busResp = some c ↔ ∃ r, s.out.resp = some r ∧ Response.code r = c :=
  Option.map_eq_some_iff

/-- `bus_tx` shows the byte of a `DATA` response (R61). -/
theorem State.ports_busTx_eq_some {s : State} {b : Byte} :
    s.ports.busTx = some b ↔ s.out.resp = some (.data b) := by
  have hb : s.ports.busTx = some b ↔ ∃ r, s.out.resp = some r ∧ Response.byte r = some b := Option.bind_eq_some_iff
  simp [hb, Response.byte_eq_some]

/-! ### Reset (R49, R360) -/

/-- The reset state of any parameters has every register at the value of R49. -/
theorem allAtReset_resetFor (p : Params) : Views.AllAtReset (State.resetFor p) := by
  have hrecord : ∀ k, (State.resetFor p).recordByte k = 0 := by
    intro k
    match k with
    | 0 | 1 | 2 | 3 | 4 | 5 => rfl
    | j + 6 => simp [State.recordByte, State.resetFor]
  refine ⟨fun k _ => hrecord k, List.length_replicate, fun _ => rfl, ?_⟩
  simp [State.resetFor]

@[simp] theorem resetFor_mode (p : Params) : (State.resetFor p).mode = some .sleep := rfl

/-- The invariants hold after reset, under every legal choice of the parameters (R48, R360). -/
theorem resetFor_invariants {p : Params} (hp : p.wf) : Invariants (State.resetFor p) where
  params_wf := hp
  time_length := List.length_replicate
  alarm_length := List.length_replicate
  timer_length := List.length_replicate
  ib_wf := rfl
  ib_below := rfl
  tx_le := Nat.zero_le _
  rx_le := Nat.zero_le _
  pending_done := nofun
  receiving_room := nofun
  mode_legal := .inl rfl
  rail_sampling := rfl
  sampling_mode := ⟨nofun, fun h => absurd rfl h⟩
  buttons_high := fun _ _ => BitVec.getLsbD_zero
  confirmed_mode := nofun
  wake_mode := fun h => absurd rfl h
  track_mode := nofun
  timer_le := fun t ht => by simp [List.eq_of_mem_replicate ht]
  due_sampling := nofun

/-! ### What the invariants say of the mode -/

/-- The rail and the sampling are on in every mode but `Sleep` (R48 item 5). -/
theorem Invariants.sampling_of_mode {s : State} {m : Mode} (hs : Invariants s) (hm : s.mode = some m)
    (hne : m ≠ .sleep) : s.samplingEn = true :=
  hs.sampling_mode.mpr (by simpa [hm] using hne)

/-- With the sampling on, in a mode other than `Sleep`, the sampling meets its invariant (R48 item 5). -/
theorem sampling_iff_of_mode {s : State} {m : Mode} (hon : s.samplingEn = true) (hm : s.mode = some m)
    (hne : m ≠ .sleep) : s.samplingEn = true ↔ s.mode ≠ some .sleep :=
  ⟨fun _ => by simpa [hm] using hne, fun _ => hon⟩

/-- Outside `WakeUp` there is no confirmation (R48 item 7). -/
theorem Invariants.confirmed_eq_false {s : State} (hs : Invariants s) (hm : s.mode ≠ some .wakeUp) :
    s.confirmed = false :=
  Bool.eq_false_iff.mpr fun hc => hm (hs.confirmed_mode hc)

/-- Outside `WakeUp` the wake timeout is 0 (R48 item 7). -/
theorem Invariants.wakeTo_eq_zero {s : State} (hs : Invariants s) (hm : s.mode ≠ some .wakeUp) : s.wakeTo = 0#16 :=
  Decidable.of_not_not fun hw => hm (hs.wake_mode hw)

/-- `PowerUp` is never entered, so waking is `WakeUp` (R48 item 4, R258). -/
theorem Invariants.wakeUp_of_isWaking {s : State} (hs : Invariants s) (hw : s.isWaking = true) :
    s.mode = some .wakeUp := by
  obtain h | h := State.isWaking_iff.mp hw
  · exact h
  · have hlegal := hs.mode_legal
    simp [h] at hlegal

/-! ### The setters and the mode entries (R27, R243 to R255) -/

/-- A status write that leaves the mode keeps the invariants; the signal line is in none of them. -/
theorem Invariants.of_same_mode {s : State} (hs : Invariants s) {b : Byte} (hb : modeField b = modeField s.status)
    (line : Bool) : Invariants { s with status := b, irq := line } := by
  have hm : ({ s with status := b, irq := line } : State).mode = s.mode := congrArg Mode.ofCode hb
  exact { hs with
    mode_legal := hm ▸ hs.mode_legal
    sampling_mode := hm ▸ hs.sampling_mode
    confirmed_mode := hm ▸ hs.confirmed_mode
    wake_mode := hm ▸ hs.wake_mode
    track_mode := hm ▸ hs.track_mode }

theorem setFlag_invariants (f : Flag) (b : Bool) {s : State} (hs : Invariants s) : Invariants (setFlag f b s).1 := by
  have hb := setFlag_modeField f b s
  rw [setFlag_frame] at hb ⊢
  exact hs.of_same_mode hb _

/-- After `SetMode` a press is tracked only where the mode was that one already (R243). -/
theorem setMode_pwrTrack {m : Mode} {s : State} (h : (setMode m s).1.pwrTrack = true) :
    s.mode = some m ∧ s.pwrTrack = true := by
  rw [setMode_frame] at h
  by_cases hm : modeField s.status = m.code
  · exact ⟨State.mode_eq_some.mpr hm, by simpa [hm] using h⟩
  · simp [hm] at h

/-- Tracking is off after an entry to `Sleep` or `PowerDown`, where no press is tracked (R48 item 8). -/
theorem Invariants.setMode_pwrTrack_eq_false {m : Mode} {s : State} (hs : Invariants s) (hw : m ≠ .wakeUp)
    (ho : m ≠ .on) : (setMode m s).1.pwrTrack = false := by
  refine Bool.eq_false_iff.mpr fun h => ?_
  obtain ⟨hm, ht⟩ := setMode_pwrTrack h
  have htrack := hs.track_mode ht
  simp [hm, hw, ho] at htrack

theorem enterSleep_invariants {s : State} (hs : Invariants s) : Invariants (enterSleep s) := by
  have hm := enterSleep_mode s
  have ht := hs.setMode_pwrTrack_eq_false (m := .sleep) (by decide) (by decide)
  rw [enterSleep_frame, ht] at hm ⊢
  exact { hs with
    mode_legal := .inl hm
    rail_sampling := rfl
    sampling_mode := ⟨nofun, fun h => absurd hm h⟩
    confirmed_mode := nofun
    wake_mode := fun h => absurd rfl h
    track_mode := nofun
    due_sampling := nofun }

theorem enterWakeUp_invariants {s : State} (hs : Invariants s) : Invariants (enterWakeUp s) := by
  have hm := enterWakeUp_mode s
  rw [enterWakeUp_frame] at hm ⊢
  exact { hs with
    mode_legal := .inr (.inl hm)
    rail_sampling := rfl
    sampling_mode := sampling_iff_of_mode rfl hm (by decide)
    confirmed_mode := nofun
    wake_mode := fun _ => hm
    track_mode := fun _ => .inl hm
    due_sampling := fun _ => rfl }

/-- `EnterOn` leaves the rail and the sampling as they are, so they must be on (R251). -/
theorem enterOn_invariants {s : State} (hs : Invariants s) (hon : s.samplingEn = true) : Invariants (enterOn s) := by
  have hm := enterOn_mode s
  rw [enterOn_frame] at hm ⊢
  exact { hs with
    mode_legal := .inr (.inr (.inl hm))
    sampling_mode := sampling_iff_of_mode hon hm (by decide)
    confirmed_mode := nofun
    wake_mode := fun h => absurd rfl h
    track_mode := fun _ => .inr hm }

/-- `EnterPowerDown` is taken in `On` alone, where no wake is under way (R254, R255). -/
theorem enterPowerDown_invariants {s : State} (hs : Invariants s) (hon : s.mode = some .on) :
    Invariants (enterPowerDown s) := by
  have hm := enterPowerDown_mode s
  have ht := hs.setMode_pwrTrack_eq_false (m := .powerDown) (by decide) (by decide)
  have hc := hs.confirmed_eq_false (by simp [hon])
  have hw := hs.wakeTo_eq_zero (by simp [hon])
  rw [enterPowerDown_frame, ht] at hm ⊢
  exact { hs with
    mode_legal := .inr (.inr (.inr hm))
    sampling_mode := sampling_iff_of_mode (hs.sampling_of_mode hon (by decide)) hm (by decide)
    confirmed_mode := by simp [hc]
    wake_mode := fun h => absurd hw h
    track_mode := nofun }

theorem contact_invariants {s : State} (hs : Invariants s) : Invariants (contact s) := by
  by_cases hw : s.isWaking = true
  · rw [contact_of_waking hw]
    exact enterOn_invariants hs (hs.sampling_of_mode (hs.wakeUp_of_isWaking hw) (by decide))
  · rwa [contact_of_not_waking (by simpa using hw)]

/-! ### The other shared operations -/

/-- The haptic bit and the ports are in no invariant (R265). -/
theorem wakeHaptic_invariants {s : State} (hs : Invariants s) : Invariants (wakeHaptic s) := by
  rw [wakeHaptic_frame]
  exact { hs with }

theorem respond_invariants (r : Response) {s : State} (hs : Invariants s) : Invariants (respond r s) := { hs with }

theorem raise_invariants (c : Cause) {s : State} (hs : Invariants s) : Invariants (raise c s) := by
  rw [raise_frame]
  exact { hs with }

theorem writeTime_invariants (v : List Byte) {s : State} (hs : Invariants s) : Invariants (writeTime v s) :=
  { hs with time_length := fitBytes_length _ _ }

theorem writeAlarm_invariants (v : List Byte) {s : State} (hs : Invariants s) : Invariants (writeAlarm v s) :=
  { hs with alarm_length := fitBytes_length _ _ }

/-- `Reset()` keeps the parameters, which alone the invariants of the reset state need (R360). -/
theorem resetBlock_invariants {s : State} (hs : Invariants s) : Invariants (resetBlock s) :=
  { resetFor_invariants hs.params_wf with }

/-- The end of a service leaves no command pending (R170). -/
theorem finishCommand_invariants {s : State} (hs : Invariants s) : Invariants (finishCommand s) :=
  { hs with pending_done := nofun }

theorem advancePhase_invariants {s : State} (hs : Invariants s) : Invariants (advancePhase s) := { hs with }

/-- Taking an event writes the model's own fields, which are in no invariant. -/
theorem takeEvent_invariants {s : State} (hs : Invariants s) : Invariants (takeEvent s) := by
  rw [takeEvent_frame]
  exact { hs with }

/-! ### The bus (R202 to R213) -/

/-- `Abort` gives up a partial command, of which none is pending (R213, R48 item 2). -/
theorem abort_invariants {s : State} (hs : Invariants s) : Invariants (abort s) where
  __ := hs
  rx_le := by
    rw [abort_rxLen]
    split
    · exact Nat.zero_le _
    · exact hs.rx_le
  pending_done := fun hp => by
    obtain ⟨hnot, hlen⟩ := hs.pending_done hp
    exact ⟨by simp, by rwa [abort_rxLen, if_neg hnot]⟩
  receiving_room := nofun

/-- Leaving a write by its end: what is pending afterwards has a byte, and the bus receives no more (R210). -/
theorem endWriteIfReceiving_invariants {s : State} (hs : Invariants s) {b : BusState} (hb : b ≠ .receivingCommand) :
    Invariants { endWriteIfReceiving s with busState := b } := by
  rw [endWriteIfReceiving_frame]
  refine { hs with pending_done := fun hp => ⟨hb, ?_⟩, receiving_room := fun h => absurd h hb }
  obtain hp | hp := Bool.or_eq_true_iff.mp hp
  · exact (hs.pending_done hp).2
  · exact (of_decide_eq_true hp).2

/-- A write starts with an empty buffer and no command pending (R204). -/
theorem startWrite_invariants {s : State} (hs : Invariants s) (hp : s.cmdPending = false) :
    Invariants { s with rxLen := 0, busState := .receivingCommand } :=
  { hs with
    rx_le := Nat.zero_le _
    pending_done := fun h => absurd (hp.symm.trans h) (by decide)
    receiving_room := fun _ => s.params.cap_pos }

/-- The cursor moves only while it is on a record byte (R203). -/
theorem sendNextByte_invariants {s : State} (hs : Invariants s) : Invariants (sendNextByte s) := by
  rw [sendNextByte_frame]
  by_cases hlt : s.txCur < s.params.srBytes
  · simp only [if_pos hlt]
    exact { hs with tx_le := hlt }
  · simp only [if_neg hlt]
    exact { hs with
      pending_done := fun hp => ⟨nofun, (hs.pending_done hp).2⟩
      receiving_room := nofun }

/-- A byte is stored below the capacity; the one that fills the buffer ends the write (R206). -/
theorem byteStored_invariants {s : State} (hs : Invariants s) (hr : s.busState = .receivingCommand) (b : Byte) :
    Invariants (byteStored { s with ib := Memory.write s.ib s.rxLen b }) := by
  have hroom := hs.receiving_room hr
  have hwf := Memory.wf_write hs.ib_wf s.rxLen b
  have hbelow := Memory.below_write hs.ib_below hroom b
  rw [byteStored_frame]
  dsimp only
  by_cases hlt : s.rxLen + 1 < s.params.cap
  · simp only [if_pos hlt]
    exact { hs with
      ib_wf := hwf
      ib_below := hbelow
      rx_le := hroom
      pending_done := fun hp => absurd hr (hs.pending_done hp).1
      receiving_room := fun _ => hlt }
  · simp only [if_neg hlt]
    exact { hs with
      ib_wf := hwf
      ib_below := hbelow
      rx_le := hroom
      pending_done := fun _ => ⟨nofun, Nat.le_add_left 1 _⟩
      receiving_room := nofun }

/-! ### The sampler, the tick and the analog step (R281, R285, R297) -/

/-- The sampler's loop leaves every timer as it was or reloads it (R281). -/
theorem mem_sampleFrom_timers {reload raw : Byte} {i : Nat} {ts : List Byte} {btns t : Byte}
    (h : t ∈ (sampleFrom reload raw i ts btns).timers) : t = reload ∨ t ∈ ts := by
  induction ts generalizing i btns with
  | nil => exact Or.inr h
  | cons u ts ih =>
    simp only [sampleFrom, List.mem_cons] at h ⊢
    obtain h | h := h
    · split at h
      · exact .inl h
      · exact .inr (.inl h)
    · exact (ih h).imp_right .inr

theorem buttonSample_invariants (raw : Byte) {s : State} (hs : Invariants s) : Invariants (buttonSample raw s) := by
  obtain ⟨⟨_, hn⟩, _⟩ := hs.params_wf
  rw [← hs.timer_length] at hn
  rw [buttonSample_frame]
  refine { hs with
    timer_length := (sampleFrom_length _ _ _ _ _).trans hs.timer_length
    buttons_high := fun i hi => ?_
    timer_le := fun t ht => ?_ }
  · rw [← hs.timer_length] at hi
    exact (sampleFrom_outside _ _ _ (by omega) (by omega)).trans (hs.buttons_high i (hs.timer_length ▸ hi))
  · obtain rfl | ht := mem_sampleFrom_timers ht
    · exact (BitVec.toNat_ofNat _ 8).trans_le (Nat.mod_le _ _)
    · exact hs.timer_le t ht

/-- The decrement never rises, so it keeps every bound (R11). -/
theorem dec0_toNat_le {n : Nat} (v : BitVec n) : (dec0 v).toNat ≤ v.toNat :=
  (dec0_toNat v).trans_le (Nat.sub_le _ _)

theorem tick_invariants {s : State} (hs : Invariants s) : Invariants (tick s) := by
  rw [tick_frame]
  refine { hs with
    timer_length := (List.length_map _).trans hs.timer_length
    wake_mode := fun hw => hs.wake_mode fun h0 => hw ?_
    timer_le := fun t ht => ?_
    due_sampling := fun hd => ?_ }
  · simp [h0, dec0]
  · obtain ⟨u, hu, rfl⟩ := List.mem_map.mp ht
    exact (dec0_toNat_le u).trans (hs.timer_le u hu)
  · obtain hd | hd := Bool.or_eq_true_iff.mp hd
    · exact hs.due_sampling hd
    · exact (Bool.and_eq_true_iff.mp hd).1

/-- The analog step takes the due sample where the sampling is on, and sets no sample due (R297). -/
theorem sampleDue_of_analogSample {a : Half} {s : State} (h : (analogSample a s).sampleDue = true) :
    s.sampleDue = true := by
  unfold analogSample at h
  split at h
  · cases h
  · exact h

theorem analogSample_invariants (a : Half) {s : State} (hs : Invariants s) : Invariants (analogSample a s) := by
  have hdue := sampleDue_of_analogSample (a := a) (s := s)
  rw [analogSample_frame] at hdue ⊢
  exact { hs with due_sampling := fun hd => hs.due_sampling (hdue hd) }

/-! ### The supervisor (R245 to R257) -/

theorem superviseUnconfirmed_invariants (p : Bool) {s : State} (hs : Invariants s) (hm : s.mode = some .wakeUp) :
    Invariants (superviseUnconfirmed p s) := by
  unfold superviseUnconfirmed
  split
  · exact wakeHaptic_invariants { hs with confirmed_mode := fun _ => hm }
  · split
    · exact hs
    · exact enterSleep_invariants hs

/-- The timeout of a wake, after the confirmation test (R249). -/
theorem wakeTimeout_invariants {u : State} (hu : Invariants u) :
    Invariants (if u.isWaking && u.wakeTo == 0#16 then enterSleep u else u) := by
  split
  · exact enterSleep_invariants hu
  · exact hu

theorem superviseWaking_invariants (p : Bool) {s : State} (hs : Invariants s) (hm : s.mode = some .wakeUp) :
    Invariants (superviseWaking p s) := by
  refine wakeTimeout_invariants (u := if s.confirmed then s else superviseUnconfirmed p s) ?_
  split
  · exact hs
  · exact superviseUnconfirmed_invariants p hs hm

/-- The end of a tracked press in `On`, long or short (R253, R254). -/
theorem pressEnd_invariants (p : Bool) {u : State} (hu : Invariants u) (hm : u.mode = some .on) :
    Invariants (if u.pwrTrack then
      if u.params.longPressTicks ≤ u.holdCnt.toNat then enterSleep u else if p then u else enterPowerDown u
      else u) := by
  split
  · split
    · exact enterSleep_invariants hu
    · split
      · exact hu
      · exact enterPowerDown_invariants hu hm
  · exact hu

theorem superviseOn_invariants (press p : Bool) {s : State} (hs : Invariants s) (hm : s.mode = some .on) :
    Invariants (superviseOn press p s) := by
  cases press with
  | false => exact pressEnd_invariants p hs hm
  | true =>
    exact pressEnd_invariants p (u := { s with pwrTrack := true, holdCnt := 0 })
      { hs with track_mode := fun _ => .inr hm } hm

/-- The rules of the four modes that the invariants leave (R245, R48 item 4). -/
theorem superviseMode_invariants (press p rel : Bool) {s : State} (hs : Invariants s) :
    Invariants (superviseMode press p rel s) := by
  obtain hm | hm | hm | hm := hs.mode_legal <;> simp only [superviseMode, hm]
  · unfold superviseSleep
    split
    · exact enterWakeUp_invariants hs
    · exact hs
  · exact superviseWaking_invariants p hs hm
  · exact superviseOn_invariants press p hs hm
  · unfold supervisePowerDown
    split
    · exact enterSleep_invariants hs
    · exact hs

theorem supervise_invariants (rel : Bool) {s : State} (hs : Invariants s) : Invariants (supervise rel s) :=
  { superviseMode_invariants (s.powerButton && !s.pwrPrev) s.powerButton rel hs with }

theorem envHapticDone_invariants (ok : Bool) {s : State} (hs : Invariants s) : Invariants (envHapticDone ok s) := by
  unfold envHapticDone
  split
  · exact { hs with }
  · exact hs

/-! ### The agents keep the invariants (R48, R15) -/

/-- A result known to be one state meets the invariants when that state does. -/
theorem invariants_of_next {t u : State} (h : (.next u : Result) = .next t) (hu : Invariants u) : Invariants t := by
  cases h
  exact hu

/-- A served message keeps the invariants when its own effect does (R172). -/
theorem serve_invariants {effect : State → State} {s t : State} (hs : Invariants s) (h : serve effect s = .next t)
    (he : ∀ u, Invariants u → Invariants (effect u)) : Invariants t :=
  invariants_of_next h (finishCommand_invariants (he _ (contact_invariants hs)))

theorem dropWrongDirection_invariants {s t : State} (hs : Invariants s) (h : dropWrongDirection s = .next t) :
    Invariants t :=
  invariants_of_next h (finishCommand_invariants (raise_invariants _ hs))

/-- `POWER_DOWN` acts in `On` alone, as the entry to `PowerDown` needs (R184). -/
theorem execPowerDown_invariants {s t : State} (hs : Invariants s) (h : execPowerDown s = .next t) : Invariants t := by
  refine serve_invariants hs h fun u hu => ?_
  split
  · next hon => exact enterPowerDown_invariants hu hon
  · exact hu

/-- A transport-level error is counted, and the transfer given up (R312, R213). -/
theorem raise_abort_invariants (c : Cause) (r : Response) {s : State} (hs : Invariants s) :
    Invariants (respond r (abort (raise c s))) :=
  respond_invariants r (abort_invariants (raise_invariants c hs))

theorem execDts_invariants {s t : State} (hs : Invariants s) (h : execDts s = .next t) : Invariants t := by
  unfold execDts at h
  split at h
  · exact invariants_of_next h (sendNextByte_invariants hs)
  · exact invariants_of_next h (raise_abort_invariants _ _ hs)

theorem execDrx_invariants {b : Byte} {s t : State} (hs : Invariants s) (h : execDrx b s = .next t) :
    Invariants t := by
  obtain ⟨hr, _, rfl⟩ | ⟨_, rfl⟩ := execDrx_cases h
  · exact byteStored_invariants hs hr b
  · exact raise_abort_invariants _ _ hs

/-- A read start puts the cursor on the first record byte (R202). -/
theorem execSor_invariants {s t : State} (hs : Invariants s) (h : execSor s = .next t) : Invariants t := by
  have hu := endWriteIfReceiving_invariants hs (b := .sendingState) (by decide)
  exact invariants_of_next h { hu with tx_le := Nat.zero_le _ }

/-- A write start is accepted where no command is pending (R204). -/
theorem execSow_invariants {s t : State} (hs : Invariants s) (h : execSow s = .next t) : Invariants t := by
  have hu := endWriteIfReceiving_invariants hs (b := .idle) (by decide)
  unfold execSow at h
  dsimp only at h
  split at h
  · exact invariants_of_next h (respond_invariants .nack hu)
  · next hp =>
    have hw := startWrite_invariants hu (by simpa using hp)
    exact invariants_of_next h (respond_invariants .ack hw)

theorem execEot_invariants {s t : State} (hs : Invariants s) (h : execEot s = .next t) : Invariants t :=
  invariants_of_next h (respond_invariants .ack (endWriteIfReceiving_invariants hs (by decide)))

/-- Every instruction of the opcode table keeps the invariants. -/
theorem exec_invariants {i : Instr} {s t : State} (hs : Invariants s) (h : exec i s = .next t) : Invariants t := by
  cases i with
  | nop => exact invariants_of_next h (finishCommand_invariants hs)
  | reset => exact serve_invariants hs h fun _ hu => resetBlock_invariants hu
  | info => exact serve_invariants hs h fun _ hu => hu
  | recStart =>
    simp only [exec, execRecStart] at h
    exact serve_invariants hs h fun _ hu => setFlag_invariants .recording true hu
  | recStop =>
    simp only [exec, execRecStop] at h
    exact serve_invariants hs h fun _ hu => setFlag_invariants .recording false hu
  | setBrightness v =>
    simp only [exec, execSetBrightness] at h
    exact serve_invariants hs h fun _ hu => { hu with }
  | setClock dt => exact serve_invariants hs h fun _ hu => writeTime_invariants dt hu
  | setAlarm dt => exact serve_invariants hs h fun _ hu => writeAlarm_invariants dt hu
  | haptic i d => exact serve_invariants hs h fun _ hu => { hu with }
  | hapticAck => exact dropWrongDirection_invariants hs h
  | hapticFail => exact dropWrongDirection_invariants hs h
  | powerDown => exact execPowerDown_invariants hs h
  | dts => exact execDts_invariants hs h
  | drx b => exact execDrx_invariants hs h
  | sor => exact execSor_invariants hs h
  | sow => exact execSow_invariants hs h
  | eot => exact execEot_invariants hs h
  | other => exact invariants_of_next h (raise_abort_invariants _ _ hs)

theorem commandService_invariants {s t : State} (hs : Invariants s) (h : commandService s = .next t) :
    Invariants t := by
  obtain ⟨_, rfl⟩ | ⟨_, e, _, rfl⟩ | ⟨_, i, _, hi⟩ := commandService_cases h
  · exact { hs with }
  · exact finishCommand_invariants (raise_invariants _ hs)
  · exact exec_invariants hs hi

theorem mainStep_invariants {b : Byte} {a : Half} {r : Bool} {s t : State} (hs : Invariants s)
    (h : mainStep b a r s = .next t) : Invariants t := by
  unfold mainStep at h
  split at h
  · exact invariants_of_next h (advancePhase_invariants (buttonSample_invariants b hs))
  · exact invariants_of_next h (advancePhase_invariants (analogSample_invariants a hs))
  · exact invariants_of_next h (advancePhase_invariants (supervise_invariants r hs))
  · exact commandService_invariants hs h

theorem runEvent_invariants {e : Event} {s t : State} (hs : Invariants s) (h : runEvent e s = .next t) :
    Invariants t := by
  cases e with
  | bus c rx => exact exec_invariants hs h
  | tick => exact invariants_of_next h (tick_invariants hs)
  | wake => exact invariants_of_next h hs
  | main b a r => exact mainStep_invariants hs h
  | setFlag f b => exact invariants_of_next h (setFlag_invariants _ b hs)
  | clockAdvance v => exact invariants_of_next h (writeTime_invariants v hs)
  | hapticDone ok => exact invariants_of_next h (envHapticDone_invariants ok hs)
  | reset => exact invariants_of_next h (resetBlock_invariants hs)

theorem step_invariants {s t : State} (hs : Invariants s) (h : step s = .next t) : Invariants t :=
  runEvent_invariants (takeEvent_invariants hs) h

end Sys2Proof.Machine

namespace Sys2Proof.Proofs

open Sys2Proof.Machine

/-- Settles O11: each operation keeps the invariants, and so does each agent's step (R48). -/
theorem everyStepKeepsInvariants : Obligations.EveryStepKeepsInvariants :=
  fun _ _ hs h => step_invariants hs h

/-- Settles O12: the reset values meet each invariant, under any legal parameters (R48, R360). -/
theorem resetMeetsInvariants : Obligations.ResetMeetsInvariants :=
  ⟨fun _ hp => resetFor_invariants hp, resetFor_invariants (by decide)⟩

/-- Settles O46: the reset state is that of the example parameters (R49, log 1). -/
theorem resetStateHoldsTable : Obligations.ResetStateHoldsTable :=
  ⟨allAtReset_resetFor Params.specExample, resetFor_mode _, rfl⟩

/-- Settles O59: the registers are shown as they are, the channel and the response by their codes (R61 to R66, R131). -/
theorem portsShowRegisters : Obligations.PortsShowRegisters := by
  intro s
  refine ⟨rfl, rfl, rfl, rfl, rfl, rfl, rfl, rfl, rfl, Channel.code_inj (d := .joyX), Channel.code_inj (d := .joyY),
    Channel.code_inj (d := .vbatt), Channel.code_inj (d := .temp), Option.map_eq_none_iff, ?ack, ?nack, ?data,
    ?complete, fun _ => State.ports_busTx_eq_some, rfl, rfl⟩
  case ack => simp [State.ports_busResp_eq_some, Response.code_eq_zero]
  case nack => simp [State.ports_busResp_eq_some, Response.code_eq_one]
  case data => simp [State.ports_busResp_eq_some, Response.code_eq_two]
  case complete => simp [State.ports_busResp_eq_some, Response.code_eq_three]

end Sys2Proof.Proofs
end

section
/-! PROOFS. The inbound space (`20_memory.md`): what a write transaction stores (R82, R141, R204 to R208), and that the
command service reads the message back (R170, R171). The bus strobes of a write each have one equation; the transaction
is made of these. -/

namespace Sys2Proof

/-! ### The decoder on a buffer that begins with a message (R121 to R124) -/

/-- Every instruction's encoding has the size of its ordinal, or is the vector read as it (R121, R130). -/
theorem sizedEncoding (i : Instr) : Laws.SizedEncoding.Statement i := by
  cases i with
  | nop => exact Laws.SizedEncoding.nop
  | reset => exact Laws.SizedEncoding.reset
  | info => exact Laws.SizedEncoding.info
  | recStart => exact Laws.SizedEncoding.recStart
  | recStop => exact Laws.SizedEncoding.recStop
  | setBrightness v => exact Laws.SizedEncoding.setBrightness v
  | setClock dt => exact Laws.SizedEncoding.setClock dt
  | setAlarm dt => exact Laws.SizedEncoding.setAlarm dt
  | haptic i d => exact Laws.SizedEncoding.haptic i d
  | hapticAck => exact Laws.SizedEncoding.hapticAck
  | hapticFail => exact Laws.SizedEncoding.hapticFail
  | powerDown => exact Laws.SizedEncoding.powerDown
  | dts => exact Laws.SizedEncoding.dts
  | drx b => exact Laws.SizedEncoding.drx b
  | sor => exact Laws.SizedEncoding.sor
  | sow => exact Laws.SizedEncoding.sow
  | eot => exact Laws.SizedEncoding.eot
  | other => exact Laws.SizedEncoding.other

/-- A well-formed message is encoded in at least one byte, as many as its ordinal's size (R121, R122). -/
theorem messageSize_encode {dtBytes : Nat} {i : Instr} {m : List Byte} (hw : i.wf dtBytes = true)
    (he : encode i = .message m) : m ≠ [] ∧ messageSize dtBytes (byteAt m 0) = some m.length := by
  have h := sizedEncoding i dtBytes hw
  rwa [he] at h

/-- Every message of the catalog fits in the inbound buffer (R8, R122). -/
theorem messageSize_le_cap {p : Params} {ord : Byte} {size : Nat} (h : messageSize p.dtBytes ord = some size) :
    size ≤ p.cap := by
  have h3 : 3 ≤ p.cap := le_max_left 3 (1 + p.dtBytes)
  have hdt : 1 + p.dtBytes ≤ p.cap := le_max_right 3 (1 + p.dtBytes)
  unfold messageSize at h
  split_ifs at h <;> cases h <;> omega

/-- A command of at least its ordinal's size is valid (R171). -/
theorem validate_of_size_le {dtBytes : Nat} {ord : Byte} {size len : Nat} (h : messageSize dtBytes ord = some size)
    (hle : size ≤ len) : validate dtBytes ord len = .ok () := by
  simp [validate, h, Nat.not_lt.mpr hle]

/-- The first byte of a non-empty string is the first byte of every longer one. -/
theorem byteAt_zero_append {m : List Byte} (h : m ≠ []) (tail : List Byte) : byteAt (m ++ tail) 0 = byteAt m 0 := by
  cases m with
  | nil => exact absurd rfl h
  | cons b bs => rfl

/-- A date-time string stands behind the ordinal, whatever follows it (R123, R124). -/
theorem bytesAt_one_append (ord : Byte) (dt tail : List Byte) :
    bytesAt (ord :: (dt ++ tail)) 1 dt.length = dt := by
  rw [bytesAt_cons_one ord _ (by simp), List.take_left]

/-- The message at the head of a buffer is the one selected, with its operands (R123, R143). -/
theorem messageOf_encode_append {dtBytes : Nat} {i : Instr} {m : List Byte} (hw : i.wf dtBytes = true)
    (he : encode i = .message m) (tail : List Byte) : messageOf dtBytes (m ++ tail) = some i := by
  cases i with
  | setClock dt | setAlarm dt =>
    obtain rfl : dt.length = dtBytes := by simpa [Instr.wf] using hw
    cases he
    simp [messageOf, bytesAt_one_append]
  | dts | drx | sor | sow | eot | other => cases he
  | _ => cases he; rfl

/-- A buffer that begins with a message decodes to it; what stands behind the message is ignored (R124, R171). -/
theorem decodeBuffer_encode_append {dtBytes : Nat} {i : Instr} {m : List Byte} (hw : i.wf dtBytes = true)
    (he : encode i = .message m) (tail : List Byte) {len : Nat} (hlen : m.length ≤ len) :
    decodeBuffer dtBytes (m ++ tail) len = .ok i := by
  obtain ⟨hne, hsize⟩ := messageSize_encode hw he
  have hvalid : validate dtBytes (byteAt (m ++ tail) 0) len = .ok () := by
    rw [byteAt_zero_append hne]
    exact validate_of_size_le hsize hlen
  exact decodeBuffer_of_valid hvalid (messageOf_encode_append hw he tail)

end Sys2Proof

namespace Sys2Proof.Machine

/-! ### Reading back what was written (R11, R29) -/

/-- A buffer read after a write at its start: the bytes written, then those that stood there before (R29, U9). -/
theorem Memory.readN_writeN_zero {m : Memory} (h : Memory.wf m = true) {bs : List Byte} {n : Nat}
    (hn : bs.length ≤ n) :
    Memory.readN (Memory.writeN m 0 bs) 0 n = bs ++ Memory.readN m bs.length (n - bs.length) := by
  apply List.ext_getElem
  · simp [hn]
  · intro k _ _
    by_cases hk : k < bs.length
    · simp [Memory.readN, Memory.read_writeN h, hk]
    · simp [Memory.readN, Memory.read_writeN h, hk, List.getElem_append_right (Nat.not_lt.mp hk),
        Nat.add_sub_cancel' (Nat.not_lt.mp hk)]

/-! ### The strobes of a write transaction (R204, R206, R208) -/

/-- `SOW` outside a write, with none pending, opens a write (R204). -/
theorem feed_sow_accepted {s : State} (hp : s.cmdPending = false) (hr : s.busState ≠ .receivingCommand) (rx : Byte) :
    feed (.bus 0b00010 rx) s =
      .next { s with rxLen := 0, busState := .receivingCommand, out := ⟨some .ack, none, none⟩ } := by
  have hu : endWriteIfReceiving { s with out := .quiet } = { s with out := .quiet } := if_neg hr
  rw [feed_eq]
  change execSow { s with out := .quiet } = _
  rw [execSow, hu]
  simp [hp, respond, Outputs.quiet]

/-- `DRX` in a write with room stores its byte at `rx_len` (R206). -/
theorem feed_drx_receiving {s : State} (hr : s.busState = .receivingCommand) (hroom : s.rxLen < s.params.cap)
    (b : Byte) :
    feed (.bus 0b01000 b) s = .next (byteStored { s with ib := Memory.write s.ib s.rxLen b, out := .quiet }) := by
  have hw : memWrite { s with out := .quiet } s.rxLen [b] =
      .ok { s with ib := Memory.write s.ib s.rxLen b, out := .quiet } := memWrite_ok hroom
  rw [feed_eq]
  change execDrx b { s with out := .quiet } = _
  rw [execDrx, if_pos hr, hw]

/-- A byte that leaves room is counted, and the write stays open (R206). -/
theorem feed_drx_open {s : State} (hr : s.busState = .receivingCommand) (hmore : s.rxLen + 1 < s.params.cap)
    (b : Byte) :
    feed (.bus 0b01000 b) s =
      .next { s with ib := Memory.write s.ib s.rxLen b, rxLen := s.rxLen + 1, out := ⟨some .ack, none, none⟩ } := by
  rw [feed_drx_receiving hr (by omega), byteStored_frame]
  simp only [if_pos hmore, Outputs.quiet]

/-- The byte that fills the buffer completes the write at once (R206). -/
theorem feed_drx_full {s : State} (hr : s.busState = .receivingCommand) (hlast : s.rxLen + 1 = s.params.cap)
    (b : Byte) :
    feed (.bus 0b01000 b) s =
      .next { s with
        ib := Memory.write s.ib s.rxLen b, rxLen := s.rxLen + 1, cmdPending := true, busState := .idle
        out := ⟨some .complete, none, none⟩ } := by
  rw [feed_drx_receiving hr (by omega), byteStored_frame]
  simp only [if_neg hlast.not_lt, Outputs.quiet]

/-- `EOT` ends the transaction; a write with a byte stored leaves its command pending (R208, R210). -/
theorem feed_eot (s : State) (rx : Byte) :
    feed (.bus 0b00001 rx) s =
      .next { s with
        cmdPending := s.cmdPending || decide (s.busState = .receivingCommand ∧ 1 ≤ s.rxLen)
        busState := .idle, out := ⟨some .ack, none, none⟩ } := by
  rw [feed_eq]
  change execEot { s with out := .quiet } = _
  rw [execEot, endWriteIfReceiving_frame]
  rfl

/-! ### The write transaction (R141) -/

/-- After `ACK` the transaction goes on with the next byte (R141). -/
theorem writeBytes_cons_of_ack {b : Byte} {bs : List Byte} {s t u : State} {n : Nat}
    (hb : feed (.bus 0b01000 b) s = .next t) (hresp : t.out.resp = some .ack) (hbs : writeBytes bs t = some (n, u)) :
    writeBytes (b :: bs) s = some (n + 1, u) := by
  simp only [writeBytes, hb, nextOf, Option.bind_some, if_pos hresp, hbs, Option.map_some]

/-- `COMPLETE` ends the transaction, its byte counted (R141). -/
theorem writeBytes_cons_of_complete {b : Byte} {bs : List Byte} {s t : State}
    (hb : feed (.bus 0b01000 b) s = .next t) (hresp : t.out.resp = some .complete) :
    writeBytes (b :: bs) s = some (1, t) := by
  rw [writeBytes, hb]
  simp [nextOf, hresp]

/-- A transaction whose start is not refused: its bytes, then its end (R141). -/
theorem writeTransaction_of_accepted {bs : List Byte} {s t u v : State} {n : Nat}
    (hsow : feed (.bus 0b00010 0x00) s = .next t) (hresp : t.out.resp ≠ some .nack)
    (hbs : writeBytes bs t = some (n, u)) (heot : feed (.bus 0b00001 0x00) u = .next v) :
    writeTransaction bs s = some (some n, v) := by
  simp only [writeTransaction, hsow, nextOf, Option.bind_some, if_neg hresp, hbs, heot, Option.map_some]

/-- In an open write, bytes that fit and the end that follows leave them all stored from `rx_len` on, and pending: the
write is ended by `EOT` where there is room left, and by the last byte where there is none (R206, R208). -/
theorem writeBytes_then_eot (bs : List Byte) {s : State} {n : Nat} (hr : s.busState = .receivingCommand)
    (hroom : s.rxLen < s.params.cap) (hn : s.rxLen + bs.length = n) (hpos : 1 ≤ n) (hfit : n ≤ s.params.cap) :
    ∃ u, writeBytes bs s = some (bs.length, u) ∧ feed (.bus 0b00001 0x00) u =
      .next { s with
        ib := Memory.writeN s.ib s.rxLen bs, rxLen := n, cmdPending := true, busState := .idle
        out := ⟨some .ack, none, none⟩ } := by
  induction bs generalizing s with
  | nil =>
    obtain rfl : s.rxLen = n := hn
    refine ⟨s, rfl, ?_⟩
    rw [feed_eot, decide_eq_true ⟨hr, hpos⟩, Bool.or_true]
    rfl
  | cons b bs ih =>
    rw [List.length_cons] at hn
    by_cases hmore : s.rxLen + 1 < s.params.cap
    · have hb := feed_drx_open hr hmore b
      obtain ⟨u, hbs, heot⟩ := ih (s := { s with
          ib := Memory.write s.ib s.rxLen b, rxLen := s.rxLen + 1, out := ⟨some .ack, none, none⟩ })
        hr hmore (by dsimp only; omega) hfit
      exact ⟨u, writeBytes_cons_of_ack hb rfl hbs, heot⟩
    · have hb := feed_drx_full hr (by omega) b
      obtain rfl : bs = [] := List.eq_nil_of_length_eq_zero (by omega)
      obtain rfl : s.rxLen + 1 = n := hn
      exact ⟨_, writeBytes_cons_of_complete hb rfl, feed_eot _ _⟩

/-- A transaction that fits, started outside a write and with none pending, stands in the buffer from address 0 and is
pending with its length (R82, R141). -/
theorem writeTransaction_of_fit {bs : List Byte} {s : State} (hp : s.cmdPending = false)
    (hr : s.busState ≠ .receivingCommand) (hne : bs ≠ []) (hfit : bs.length ≤ s.params.cap) :
    writeTransaction bs s = some (some bs.length,
      { s with
        ib := Memory.writeN s.ib 0 bs, rxLen := bs.length, cmdPending := true, busState := .idle
        out := ⟨some .ack, none, none⟩ }) := by
  have hsow := feed_sow_accepted hp hr 0x00
  obtain ⟨u, hbs, heot⟩ := writeBytes_then_eot bs
    (s := { s with rxLen := 0, busState := .receivingCommand, out := ⟨some .ack, none, none⟩ })
    rfl s.params.cap_pos (Nat.zero_add _) (List.length_pos_iff.mpr hne) hfit
  exact writeTransaction_of_accepted hsow (by simp) hbs heot

/-- A message that stands at the start of the buffer is what the command service fetches (R170, R171). -/
theorem fetchCommand_of_message {s : State} {ib : Memory} {i : Instr} {m : List Byte} (hib : Memory.wf ib = true)
    (hw : i.wf s.params.dtBytes = true) (he : encode i = .message m)
    (hbuf : s.ib = Memory.writeN ib 0 m) (hlen : s.rxLen = m.length) : fetchCommand s = .ok (.ok i) := by
  have hfit := messageSize_le_cap (messageSize_encode hw he).2
  rw [fetchCommand_eq, hbuf, Memory.readN_writeN_zero hib hfit, decodeBuffer_encode_append hw he _ hlen.ge]

end Sys2Proof.Machine

namespace Sys2Proof.Proofs

open Sys2Proof.Machine

/-- Settles O53: a message has its ordinal's size, which the buffer holds (R122), so the transaction stores it whole;
the bytes behind it in the buffer are ignored by the decoder (R124). -/
theorem writtenMessageIsDecoded : Obligations.WrittenMessageIsDecoded := by
  intro s i m hs hp hr hw he
  obtain ⟨hne, hsize⟩ := messageSize_encode hw he
  exact ⟨_, writeTransaction_of_fit hp hr hne (messageSize_le_cap hsize), rfl, rfl,
    fetchCommand_of_message hs.ib_wf hw he rfl rfl, rfl⟩

end Sys2Proof.Proofs
end

section
/-! PROOFS. The encoding (`30_encoding.md`): decoding takes back what encoding wrote, and a message's size alone decides
whether it is complete (R121 to R124, R171); the match and mask rows of the raw conditions (R130); and the read
transaction (R110, R140), whose three strobes each have one equation. -/

namespace Sys2Proof

/-! ### Round trip (R121, R122, R123, R130) -/

/-- The decoder undoes the encoder on either carrier. -/
theorem decode_encode {dtBytes : Nat} {i : Instr} (hw : i.wf dtBytes = true) : decode dtBytes (encode i) = .ok i := by
  cases he : encode i with
  | message m =>
    have h := decodeBuffer_encode_append hw he [] le_rfl
    rwa [List.append_nil] at h
  | condition c rx =>
    have h := sizedEncoding i dtBytes hw
    rw [he] at h
    exact congrArg Except.ok h

/-! ### The size decides (R124, R171) -/

/-- A command that fails validation is rejected with the error of its validation (R171). -/
theorem decodeBuffer_of_invalid {dtBytes : Nat} {buf : List Byte} {len : Nat} {e : DecodeError}
    (hv : validate dtBytes (byteAt buf 0) len = .error e) : decodeBuffer dtBytes buf len = .error e := by
  simp only [decodeBuffer, hv]

/-- With a byte fewer than its size a command is truncated. The two haptic replies, which are not tested for their
length, have size 1 and no shorter command (R171, R182, R183). -/
theorem validate_of_lt_size {dtBytes : Nat} {ord : Byte} {size len : Nat} (h : messageSize dtBytes ord = some size)
    (hpos : 0 < len) (hlt : len < size) : validate dtBytes ord len = .error .truncatedPayload := by
  have hreply : ¬ (ord = 0x09#8 ∨ ord = 0x0A#8) := by
    rintro (rfl | rfl)
    all_goals
      obtain rfl : 1 = size := Option.some.inj h
      omega
  simp only [validate, h, if_neg hreply, if_pos hlt]

/-- Cut short to at least one byte, a string begins with the same byte. -/
theorem byteAt_zero_take (m : List Byte) {k : Nat} (hk : 0 < k) : byteAt (m.take k) 0 = byteAt m 0 := by
  simp [byteAt, List.getElem?_take_of_lt hk]

/-- A message cut short is rejected as truncated (R125, R171). -/
theorem decodeMessage_take_encode {dtBytes : Nat} {i : Instr} {m : List Byte} (hw : i.wf dtBytes = true)
    (he : encode i = .message m) {k : Nat} (hpos : 0 < k) (hlt : k < m.length) :
    decodeMessage dtBytes (m.take k) = .error .truncatedPayload := by
  have hlen : (m.take k).length = k := List.length_take_of_le hlt.le
  apply decodeBuffer_of_invalid
  rw [hlen, byteAt_zero_take m hpos]
  exact validate_of_lt_size (messageSize_encode hw he).2 hpos hlt

/-! ### The rows of the priority decode (R130)

Each condition is named by its own flag with every flag of higher priority clear. -/

theorem decodeBus_eq_dts {c : BitVec 5} {rx : Byte} : decodeBus c rx = .dts ↔ c.getLsbD 4 = true := by
  unfold decodeBus
  split_ifs <;> simp_all

theorem decodeBus_eq_drx {c : BitVec 5} {rx : Byte} :
    decodeBus c rx = .drx rx ↔ c.getLsbD 4 = false ∧ c.getLsbD 3 = true := by
  unfold decodeBus
  split_ifs <;> simp_all

theorem decodeBus_eq_sor {c : BitVec 5} {rx : Byte} :
    decodeBus c rx = .sor ↔ c.getLsbD 4 = false ∧ c.getLsbD 3 = false ∧ c.getLsbD 2 = true := by
  unfold decodeBus
  split_ifs <;> simp_all

theorem decodeBus_eq_sow {c : BitVec 5} {rx : Byte} :
    decodeBus c rx = .sow ↔
      c.getLsbD 4 = false ∧ c.getLsbD 3 = false ∧ c.getLsbD 2 = false ∧ c.getLsbD 1 = true := by
  unfold decodeBus
  split_ifs <;> simp_all

theorem decodeBus_eq_eot {c : BitVec 5} {rx : Byte} :
    decodeBus c rx = .eot ↔
      c.getLsbD 4 = false ∧ c.getLsbD 3 = false ∧ c.getLsbD 2 = false ∧ c.getLsbD 1 = false ∧ c.getLsbD 0 = true := by
  unfold decodeBus
  split_ifs <;> simp_all

theorem decodeBus_eq_other {c : BitVec 5} {rx : Byte} :
    decodeBus c rx = .other ↔
      c.getLsbD 4 = false ∧ c.getLsbD 3 = false ∧ c.getLsbD 2 = false ∧ c.getLsbD 1 = false ∧ c.getLsbD 0 = false := by
  unfold decodeBus
  split_ifs <;> simp_all

/-- What each row's match under its mask says of the flags, over the 32 vectors. -/
theorem condition_rows_iff_flags : ∀ c : BitVec 5,
    (c &&& 0b10000 = 0b10000 ↔ c.getLsbD 4 = true) ∧
    (c &&& 0b11000 = 0b01000 ↔ c.getLsbD 4 = false ∧ c.getLsbD 3 = true) ∧
    (c &&& 0b11100 = 0b00100 ↔ c.getLsbD 4 = false ∧ c.getLsbD 3 = false ∧ c.getLsbD 2 = true) ∧
    (c &&& 0b11110 = 0b00010 ↔
      c.getLsbD 4 = false ∧ c.getLsbD 3 = false ∧ c.getLsbD 2 = false ∧ c.getLsbD 1 = true) ∧
    (c &&& 0b11111 = 0b00001 ↔
      c.getLsbD 4 = false ∧ c.getLsbD 3 = false ∧ c.getLsbD 2 = false ∧ c.getLsbD 1 = false ∧ c.getLsbD 0 = true) ∧
    (c &&& 0b11111 = 0b00000 ↔
      c.getLsbD 4 = false ∧ c.getLsbD 3 = false ∧ c.getLsbD 2 = false ∧ c.getLsbD 1 = false ∧ c.getLsbD 0 = false) := by
  decide

end Sys2Proof

namespace Sys2Proof.Machine

/-! ### The record (R90, R110) -/

@[simp] theorem State.record_length (s : State) : s.record.length = s.params.srBytes := by simp [State.record]

@[simp] theorem State.record_getElem (s : State) {k : Nat} (hk : k < s.record.length) :
    s.record[k] = s.recordByte k := by simp [State.record]

/-- The time bytes stand from index 6 on (R26, R110). -/
theorem State.recordByte_time (s : State) {j : Nat} (hj : j < s.time.length) : s.recordByte (6 + j) = s.time[j] := by
  rw [Nat.add_comm]
  exact List.getD_eq_getElem s.time 0x00#8 hj

/-- The record's layout: six bytes, then the time string (R110). -/
theorem State.record_eq {s : State} (ht : s.time.length = s.params.dtBytes) :
    s.record = [s.status, s.buttons, s.joyX, s.joyY, s.vbatt, s.temp] ++ s.time := by
  have htime : (List.range s.params.dtBytes).map (fun j => s.recordByte (6 + j)) = s.time := by
    apply List.ext_getElem
    · simp [ht]
    · intro j _ hj
      simp [s.recordByte_time hj]
  rw [State.record, Params.srBytes, List.range_add, List.map_append, List.map_map]
  exact congrArg _ htime

/-- The record from a cursor inside it on: its live byte, then the record from the next cursor on (R203). -/
theorem State.record_drop {s : State} {k : Nat} (hk : k < s.params.srBytes) :
    s.record.drop k = s.recordByte k :: s.record.drop (k + 1) := by
  have hk' : k < s.record.length := by simpa using hk
  rw [List.drop_eq_getElem_cons hk', s.record_getElem hk']

/-! ### The strobes of a read transaction (R202, R203, R208) -/

/-- `SOR` starts a read; inside a write it first ends the write (R202). -/
theorem feed_sor (s : State) (rx : Byte) :
    feed (.bus 0b00100 rx) s =
      .next { s with
        cmdPending := s.cmdPending || decide (s.busState = .receivingCommand ∧ 1 ≤ s.rxLen)
        irq := false, txCur := 0, busState := .sendingState, out := ⟨some .ack, none, none⟩ } := by
  rw [feed_eq]
  change execSor { s with out := .quiet } = _
  rw [execSor, endWriteIfReceiving_frame]
  rfl

/-- `DTS` in a read is answered by `sendNextByte` (R203). -/
theorem feed_dts_sending {s : State} (hs : s.busState = .sendingState) (rx : Byte) :
    feed (.bus 0b10000 rx) s = .next (sendNextByte { s with out := .quiet }) := by
  rw [feed_eq]
  change execDts { s with out := .quiet } = _
  rw [execDts, if_pos hs]

/-- With the cursor inside the record, `DTS` sends the byte at the cursor (R203). -/
theorem feed_dts_data {s : State} (hs : s.busState = .sendingState) (hc : s.txCur < s.params.srBytes) (rx : Byte) :
    feed (.bus 0b10000 rx) s =
      .next { s with txCur := s.txCur + 1, out := ⟨some (.data (s.recordByte s.txCur)), none, none⟩ } := by
  rw [feed_dts_sending hs, sendNextByte_frame]
  simp only [if_pos hc, Outputs.quiet]
  rfl

/-- With the cursor past the record, `DTS` ends the read (R203). -/
theorem feed_dts_complete {s : State} (hs : s.busState = .sendingState) (hc : s.params.srBytes ≤ s.txCur) (rx : Byte) :
    feed (.bus 0b10000 rx) s = .next { s with busState := .idle, out := ⟨some .complete, none, none⟩ } := by
  rw [feed_dts_sending hs, sendNextByte_frame]
  simp only [if_neg hc.not_gt, Outputs.quiet]

/-- `EOT` outside a write leaves the state `Idle` and touches no other register (R208). -/
theorem feed_eot_of_not_receiving {s : State} (hr : s.busState ≠ .receivingCommand) (rx : Byte) :
    feed (.bus 0b00001 rx) s = .next { s with busState := .idle, out := ⟨some .ack, none, none⟩ } := by
  rw [feed_eot, decide_eq_false (fun h => hr h.1), Bool.or_false]

/-! ### The read transaction (R140) -/

/-- One `DTS`, then the rest (R140). -/
theorem readBytes_succ {n : Nat} {s t u : State} {bs : List Byte} (ht : feed (.bus 0b10000 0x00) s = .next t)
    (hbs : readBytes n t = some (bs, u)) : readBytes (n + 1) s = some (dataByte t ++ bs, u) := by
  simp only [readBytes, ht, nextOf, Option.bind_some, hbs, Option.map_some]

/-- A transaction made of its start, its bytes and its end (R140). -/
theorem readTransaction_of {n : Nat} {s t u v : State} {bs : List Byte} (hsor : feed (.bus 0b00100 0x00) s = .next t)
    (hbs : readBytes (min n (s.params.srBytes + 1)) t = some (bs, u)) (heot : feed (.bus 0b00001 0x00) u = .next v) :
    readTransaction n s = some (bs, v) := by
  simp only [readTransaction, hsor, nextOf, Option.bind_some, hbs, heot, Option.map_some]

/-- In an open read, `n` times `DTS` and the end that follows: the record's next `n` bytes, and the cursor after them.
At most one `DTS` falls past the record; it is answered `COMPLETE` and closes the read before `EOT` does (R203, R208). -/
theorem readBytes_then_eot (n : Nat) {s : State} (hs : s.busState = .sendingState) (hc : s.txCur ≤ s.params.srBytes)
    (hn : s.txCur + n ≤ s.params.srBytes + 1) :
    ∃ u, readBytes n s = some ((s.record.drop s.txCur).take n, u) ∧ feed (.bus 0b00001 0x00) u =
      .next { s with
        txCur := min (s.txCur + n) s.params.srBytes, busState := .idle, out := ⟨some .ack, none, none⟩ } := by
  induction n generalizing s with
  | zero =>
    refine ⟨s, rfl, ?_⟩
    rw [feed_eot_of_not_receiving (by simp [hs]), Nat.add_zero, min_eq_left hc]
  | succ n ih =>
    by_cases hmore : s.txCur < s.params.srBytes
    · obtain ⟨u, hbs, heot⟩ := ih (s := { s with
          txCur := s.txCur + 1, out := ⟨some (.data (s.recordByte s.txCur)), none, none⟩ })
        hs hmore (by dsimp only; omega)
      refine ⟨u, ?_, ?_⟩
      · rw [State.record_drop hmore]
        exact readBytes_succ (feed_dts_data hs hmore _) hbs
      · rw [heot, Nat.add_right_comm, Nat.add_assoc]
    · obtain rfl : n = 0 := by omega
      have hcur : min (s.txCur + (0 + 1)) s.params.srBytes = s.txCur := by omega
      rw [hcur, List.drop_eq_nil_of_le (by simpa using hmore)]
      exact ⟨_, readBytes_succ (feed_dts_complete hs (by omega) _) rfl, feed_eot_of_not_receiving (by simp) _⟩

/-- A whole read from any state: the first `n` bytes of the record, then `Idle` with the cursor after them (R140). -/
theorem readTransaction_eq (n : Nat) (s : State) :
    readTransaction n s = some (s.record.take n,
      { s with
        cmdPending := s.cmdPending || decide (s.busState = .receivingCommand ∧ 1 ≤ s.rxLen)
        irq := false, txCur := min n s.params.srBytes, busState := .idle, out := ⟨some .ack, none, none⟩ }) := by
  obtain ⟨u, hbs, heot⟩ := readBytes_then_eot (min n (s.params.srBytes + 1)) (s := { s with
      cmdPending := s.cmdPending || decide (s.busState = .receivingCommand ∧ 1 ≤ s.rxLen)
      irq := false, txCur := 0, busState := .sendingState, out := ⟨some .ack, none, none⟩ })
    rfl (Nat.zero_le _) (by dsimp only; omega)
  have htake : s.record.take (min n (s.params.srBytes + 1)) = s.record.take n := by
    rw [List.take_eq_take_iff, s.record_length]
    omega
  have hcur : min (0 + min n (s.params.srBytes + 1)) s.params.srBytes = min n s.params.srBytes := by omega
  rw [← htake, ← hcur]
  exact readTransaction_of (feed_sor s _) hbs heot

end Sys2Proof.Machine

namespace Sys2Proof.Proofs

open Sys2Proof.Machine

/-- Settles O1: a message is valid at its own length and its first byte selects it (R121 to R123); a condition's
vector has its own flag alone (R130). -/
theorem decodeOfEncode : Obligations.DecodeOfEncode :=
  fun _ _ hw => decode_encode hw

/-- Settles O2: validation compares the length with the ordinal's size, which is the encoding's length (R122, R171). -/
theorem messageLengthDecidesDecoding : Obligations.MessageLengthDecidesDecoding := by
  intro dtBytes i m tail hw he
  have hlen : m.length ≤ (m ++ tail).length := by simp
  exact ⟨decodeBuffer_encode_append hw he tail hlen, fun _ => decodeMessage_take_encode hw he⟩

/-- Settles O51: the read starts at cursor 0, so its bytes are the first of the record (R140, R202, R203). -/
theorem readTransactionReturnsRecord : Obligations.ReadTransactionReturnsRecord := by
  refine ⟨fun _ => State.record_eq, fun s n => ⟨_, readTransaction_eq n s, rfl, ?_⟩⟩
  simp

/-- Settles O4: both the row and the decoder's answer say that the row's flag is the first one set (R130). -/
theorem conditionPriority : Obligations.ConditionPriority := by
  intro c rx
  rw [decodeBus_eq_dts, decodeBus_eq_drx, decodeBus_eq_sor, decodeBus_eq_sow, decodeBus_eq_eot, decodeBus_eq_other]
  exact condition_rows_iff_flags c

/-- Settles O5: the five messages are the encodings of their instructions, written out; the vectors are evaluated. -/
theorem specWordsDecode : Obligations.SpecWordsDecode :=
  ⟨decode_encode (i := .nop) rfl, decode_encode (i := .setBrightness 0x80) rfl,
    decode_encode (i := .setClock [0x11, 0x22, 0x33, 0x44]) rfl, decode_encode (i := .haptic 0x40 0x0A) rfl,
    decode_encode (i := .powerDown) rfl, rfl, rfl, rfl, rfl, rfl, rfl⟩

end Sys2Proof.Proofs
end

section
/-! PROOFS. The State Record Codec (`40_codec.md`): what the host decodes from an encoded voltage or temperature (R150 to
R156), and the status byte, which is its mode field and its five flags (R111, R112, R158). -/

namespace Sys2Proof.Machine

/-! ### The voltage and the temperature: encoders clamp, decoders shift (R150 to R156) -/

/-- Between bounds in order, the comparisons of R11 are a maximum and a minimum. -/
theorem clamp_eq_max_min (v : Int) {lo hi : Int} (h : lo ≤ hi) : clamp v lo hi = max lo (min hi v) := by
  unfold clamp
  split <;> [skip; split] <;> omega

/-- A clamped value as a byte grows with the value. -/
theorem toNat_ofInt_clamp_mono {v w : Int} (h : v ≤ w) :
    (BitVec.ofInt 8 (clamp v 0 255)).toNat ≤ (BitVec.ofInt 8 (clamp w 0 255)).toNat := by
  rw [← Int.ofNat_le, toNat_ofInt_clamp, toNat_ofInt_clamp, clamp_eq_max_min v (by omega),
    clamp_eq_max_min w (by omega)]
  omega

/-- A byte is within the codec's range, so clamping its number gives the byte. -/
theorem ofInt_clamp_toNat (b : Byte) : BitVec.ofInt 8 (clamp b.toNat 0 255) = b := by
  have hb := b.isLt
  have hclamp : clamp b.toNat 0 255 = b.toNat := by rw [clamp_eq_max_min _ (by omega)]; omega
  rw [hclamp, BitVec.ofInt_natCast, BitVec.ofNat_toNat, BitVec.setWidth_eq]

/-- The decoded code is the voltage clamped to the 256 values that have a code (R150, R151). -/
theorem decV_encV (p : Params) (v : Int) : (decV p (encV p v)).2 = max (p.vOff : Int) (min (vCeil p) v) := by
  have henc := encV_toNat p v
  rw [clamp_eq_max_min _ (by omega)] at henc
  simp only [decV, vCeil]
  omega

/-- Every code is the code of the voltage it decodes to. -/
@[simp] theorem encV_decV (p : Params) (b : Byte) : encV p (decV p b).2 = b := by
  simp only [encV, decV, add_sub_cancel_left]
  exact ofInt_clamp_toNat b

/-- The voltage encoder is monotone (R153). -/
theorem encV_mono (p : Params) {v w : Int} (h : v ≤ w) : (encV p v).toNat ≤ (encV p w).toNat :=
  toNat_ofInt_clamp_mono (sub_le_sub_right h _)

/-- The bit `below` is set for the code 0 alone (R151). -/
theorem decV_below {p : Params} {b : Byte} : (decV p b).1 = true ↔ b = 0 := beq_iff_eq

/-- The voltages with code 0 are those below the floor (R152). -/
theorem encV_eq_zero {p : Params} {v : Int} : encV p v = 0 ↔ v < vFloor p := by
  have henc := encV_toNat p v
  rw [clamp_eq_max_min _ (by omega)] at henc
  rw [BitVec.ofNat_eq_ofNat, ← BitVec.toNat_inj, BitVec.toNat_zero, vFloor]
  omega

/-- The decoded code is the temperature clamped to -40 and 215 half degrees (R156). -/
theorem decT_encT (h : Int) : decT (encT h) = max (-40) (min 215 h) := by
  have henc := encT_toNat h
  rw [clamp_eq_max_min _ (by omega)] at henc
  simp only [decT, tOff]
  omega

/-- Every code is the code of the temperature it decodes to. -/
@[simp] theorem encT_decT (b : Byte) : encT (decT b) = b := by
  simp only [encT, decT, sub_add_cancel]
  exact ofInt_clamp_toNat b

/-- The temperature encoder is monotone (R156). -/
theorem encT_mono {h k : Int} (hk : h ≤ k) : (encT h).toNat ≤ (encT k).toNat :=
  toNat_ofInt_clamp_mono (Int.add_le_add_right hk _)

/-! ### The status byte: packing and unpacking (R111, R112, R158) -/

/-- A flag of the unpacked fields, by its name (R21). -/
def StatusFields.flag (f : StatusFields) : Flag → Bool
  | .recording => f.recording
  | .usb => f.usb
  | .charging => f.charging
  | .lowBattery => f.lowBattery
  | .alarm => f.alarm

/-- The packed mode stands in bits 2 to 0 (R158). -/
@[simp] theorem modeField_packStatus (f : StatusFields) : modeField (packStatus f) = f.mode.code :=
  BitVec.extractLsb'_append_eq_right

/-- Each packed flag stands at its own bit (R158, R111). -/
@[simp] theorem flagOf_packStatus (g : Flag) (f : StatusFields) : flagOf g (packStatus f) = f.flag g := by
  simp only [flagOf, packStatus, BitVec.getLsbD_append]
  cases g <;> simp [Flag.bit, StatusFields.flag]

/-- A status byte is its mode field and its five flags: no bit lies outside them (R111). -/
theorem status_ext {a b : Byte} (hm : modeField a = modeField b) (hf : ∀ g, flagOf g a = flagOf g b) : a = b := by
  refine BitVec.eq_of_getLsbD_eq fun i hi => ?_
  by_cases hmode : i < 3
  · have hbit := congrArg (BitVec.getLsbD · i) hm
    simpa [modeField, hmode] using hbit
  · obtain ⟨g, rfl⟩ : ∃ g, Flag.bit g = i := by
      have hflag : i = 3 ∨ i = 4 ∨ i = 5 ∨ i = 6 ∨ i = 7 := by omega
      rcases hflag with rfl | rfl | rfl | rfl | rfl
      exacts [⟨.recording, rfl⟩, ⟨.usb, rfl⟩, ⟨.charging, rfl⟩, ⟨.lowBattery, rfl⟩, ⟨.alarm, rfl⟩]
    exact hf g

/-- Unpacking reads the mode of a legal code and every flag. -/
theorem unpackStatus_eq_some_iff_fields {b : Byte} {f : StatusFields} :
    unpackStatus b = some f ↔ modeField b = f.mode.code ∧ ∀ g, flagOf g b = f.flag g := by
  rw [← Mode.ofCode_eq_some, unpackStatus]
  constructor
  · intro h
    split at h
    · cases h
    · next hm =>
      cases h
      exact ⟨hm, fun g => by cases g <;> rfl⟩
  · rintro ⟨hm, hf⟩
    simp [hm, hf, StatusFields.flag]

/-- Unpacking and packing are inverse: a byte unpacks to the fields it is the packing of (R158). -/
theorem unpackStatus_eq_some {b : Byte} {f : StatusFields} : unpackStatus b = some f ↔ packStatus f = b := by
  rw [unpackStatus_eq_some_iff_fields]
  constructor
  · rintro ⟨hm, hf⟩
    exact status_ext (by rw [modeField_packStatus, hm]) fun g => by rw [flagOf_packStatus, hf]
  · rintro rfl
    exact ⟨modeField_packStatus f, fun g => flagOf_packStatus g f⟩

/-- The codes without a mode are the reserved ones, 5 to 7 (R112). -/
theorem Mode.ofCode_eq_none {c : BitVec 3} : Mode.ofCode c = none ↔ 5 ≤ c.toNat := by
  revert c
  decide

/-- A byte is refused exactly for a reserved mode code (R112). -/
theorem unpackStatus_eq_none {b : Byte} : unpackStatus b = none ↔ 5 ≤ (modeField b).toNat := by
  rw [← Mode.ofCode_eq_none, unpackStatus]
  split <;> simp [*]

end Sys2Proof.Machine

namespace Sys2Proof.Proofs

open Sys2Proof.Machine

/-- Settles O56: the decoded code is the voltage clamped from below at `V_OFF`, which is one step under the floor; the
encoder undoes the decoder, which is therefore injective (R150 to R153). -/
theorem voltageCodecLaws : Obligations.VoltageCodecLaws := by
  refine fun p => ⟨fun v => ⟨?withinOne, ?exactFromFloor, encV_decV p _⟩, fun _ _ => encV_mono p, ?injective,
    fun _ => decV_below, fun _ => decV_below.trans encV_eq_zero⟩
  case withinOne =>
    rw [decV_encV, abs_le, vFloor, vCeil]
    omega
  case exactFromFloor =>
    rw [decV_encV, vFloor, vCeil]
    omega
  case injective =>
    intro b c h
    rw [← encV_decV p b, h, encV_decV]

/-- Settles O57: decoding the code clamps the temperature to the boundaries; the encoder undoes the decoder, so the round
trip is idempotent and the decoder injective (R154 to R156). -/
theorem temperatureCodecLaws : Obligations.TemperatureCodecLaws := by
  refine ⟨fun h => ⟨decT_encT h, by rw [encT_decT], ?lower, ?upper⟩, fun _ _ => encT_mono, ?injective⟩
  case lower =>
    rw [decT_encT]
    omega
  case upper =>
    rw [decT_encT]
    omega
  case injective =>
    intro b c hbc
    rw [← encT_decT b, hbc, encT_decT]

/-- Settles O58: each field is read back from its own bits, and a byte that unpacks is the packing of its fields; the codes
and the bit positions are the definitions' own (R111, R112, R158). -/
theorem statusPackingIsExact : Obligations.StatusPackingIsExact := by
  refine ⟨fun f => ?bits, ⟨rfl, rfl, rfl, rfl, rfl⟩, fun _ _ => State.mode_eq_some,
    fun _ => ⟨rfl, rfl, rfl, rfl, rfl⟩, fun _ => unpackStatus_eq_some.mpr rfl, fun b => ?unpack⟩
  case bits =>
    exact ⟨modeField_packStatus f, flagOf_packStatus .recording f, flagOf_packStatus .usb f,
      flagOf_packStatus .charging f, flagOf_packStatus .lowBattery f, flagOf_packStatus .alarm f⟩
  case unpack =>
    cases hb : unpackStatus b with
    | some f => exact .inl ⟨f, rfl, unpackStatus_eq_some.mp hb⟩
    | none => exact .inr ⟨unpackStatus_eq_none.mp hb, rfl⟩

end Sys2Proof.Proofs
end

section
/-! PROOFS. The messages (`41_messages.md`): the validation of a pending command (R171), the command service as a step of
the main loop (R170), and what each message does. A message other than `NOP` and the two haptic replies is the contact
(R172, R252) followed by its own effect, so the contact is described once: which registers it may write, and what it makes
of them. -/

namespace Sys2Proof

/-! ### Messages and their lengths (R121 to R125) -/

/-- A message, whatever follows it, decodes to its instruction (R124). -/
theorem decodeMessage_encode_append {dtBytes : Nat} {i : Instr} {m : List Byte} (hw : i.wf dtBytes = true)
    (he : encode i = .message m) (tail : List Byte) : decodeMessage dtBytes (m ++ tail) = .ok i :=
  decodeBuffer_encode_append hw he tail (by simp)

/-- A message with fewer bytes than its ordinal's size is rejected as truncated (R125, R171). -/
theorem decodeMessage_truncated {dtBytes size : Nat} {ord : Byte} {m : List Byte}
    (hsize : messageSize dtBytes ord = some size) (hlt : m.length + 1 < size) :
    decodeMessage dtBytes (ord :: m) = .error .truncatedPayload :=
  decodeBuffer_of_invalid (validate_of_lt_size hsize (Nat.succ_pos _) hlt)

/-- The two messages that carry a date-time: they need `DT_BYTES` bytes after the ordinal and take the first of them
(R122, R123, R124). -/
theorem decodeMessage_dateTime {dtBytes : Nat} {ord : Byte} {c : List Byte → Instr}
    (he : ∀ dt, encode (c dt) = .message (ord :: dt)) (hw : ∀ dt, (c dt).wf dtBytes = (dt.length == dtBytes))
    (hsize : messageSize dtBytes ord = some (1 + dtBytes)) (m : List Byte) :
    decodeMessage dtBytes (ord :: m) =
      if m.length < dtBytes then .error .truncatedPayload else .ok (c (m.take dtBytes)) := by
  split
  · next hlt => exact decodeMessage_truncated hsize (by omega)
  · next hge =>
    have hwf : (c (m.take dtBytes)).wf dtBytes = true := by simp [hw, Nat.not_lt.mp hge]
    have h := decodeMessage_encode_append hwf (he _) (m.drop dtBytes)
    rwa [List.cons_append, List.take_append_drop] at h

/-! ### The outcomes of the validation (R171) -/

/-- An ordinal with a size is one of the catalog (R121). -/
theorem known_of_messageSize {dtBytes size : Nat} {ord : Byte} (h : messageSize dtBytes ord = some size) :
    ord.toNat < nOrd := by
  by_contra hge
  rw [messageSize_of_unknown (Nat.not_lt.mp hge)] at h
  cases h

/-- A command shorter than its ordinal's size is truncated at every length, the two haptic replies excepted (R171). -/
theorem validate_truncated {dtBytes size len : Nat} {ord : Byte} (h : messageSize dtBytes ord = some size)
    (hack : ord ≠ 0x09#8) (hfail : ord ≠ 0x0A#8) (hlt : len < size) :
    validate dtBytes ord len = .error .truncatedPayload := by
  simp only [validate, h, hack, hfail, or_self, if_false, if_pos hlt]

/-- `HAPTIC_ACK` from the host is decoded at every length (R182). -/
theorem decodeBuffer_hapticAck {dtBytes len : Nat} {buf : List Byte} (h : byteAt buf 0 = 0x09#8) :
    decodeBuffer dtBytes buf len = .ok .hapticAck :=
  decodeBuffer_of_valid (by rw [h]; rfl) (by rw [messageOf, h]; rfl)

/-- `HAPTIC_FAIL` from the host is decoded at every length (R183). -/
theorem decodeBuffer_hapticFail {dtBytes len : Nat} {buf : List Byte} (h : byteAt buf 0 = 0x0A#8) :
    decodeBuffer dtBytes buf len = .ok .hapticFail :=
  decodeBuffer_of_valid (by rw [h]; rfl) (by rw [messageOf, h]; rfl)

/-- The message an ordinal of the catalog selects is encoded in the first bytes of the buffer, as many as the ordinal's
size (R121, R123, R143). -/
theorem encode_messageOf {dtBytes size : Nat} {buf : List Byte} (h : messageSize dtBytes (byteAt buf 0) = some size) :
    ∃ i n, messageOf dtBytes buf = some i ∧ encode i = .message (byteAt buf 0 :: bytesAt buf 1 n) ∧ n + 1 = size := by
  have hknown : (byteAt buf 0).toNat < 12 := known_of_messageSize h
  obtain ⟨ord, hord⟩ : ∃ ord, (byteAt buf 0).toNat = ord := ⟨_, rfl⟩
  have hbyte : byteAt buf 0 = BitVec.ofNat 8 ord := BitVec.eq_of_toNat_eq (by simp [← hord])
  rw [hbyte] at h ⊢
  rw [messageOf, hord]
  rw [hord] at hknown
  interval_cases ord
  all_goals obtain rfl := Option.some.inj h
  -- the ordinals of size 1; there remain 0x05 to 0x08, in order
  any_goals exact ⟨_, 0, rfl, rfl, rfl⟩
  · exact ⟨_, 1, rfl, rfl, rfl⟩
  · exact ⟨_, dtBytes, rfl, rfl, Nat.add_comm _ _⟩
  · exact ⟨_, dtBytes, rfl, rfl, Nat.add_comm _ _⟩
  · exact ⟨_, 2, rfl, rfl, rfl⟩

/-- Byte `k` of a string of bytes taken from index 1 (R123). -/
theorem bytesAt_one_getD (buf : List Byte) {n k : Nat} (hk : k < n) :
    (bytesAt buf 1 n).getD k 0 = byteAt buf (k + 1) := by
  simp [bytesAt, hk, Nat.add_comm]

end Sys2Proof

namespace Sys2Proof.Machine

/-! ### The command service (R170) -/

/-- A step of the main loop in phase `Command` is the command service (R170, R240). -/
theorem step_of_commandPhase {s : State} {b : Byte} {a : Half} {h : Bool} {rest : List Event}
    (he : s.events = .main b a h :: rest) (hp : s.mlPhase = .command) :
    step s = commandService { s with events := rest, out := .quiet } := by
  rw [step_of_cons he]
  simp only [runEvent, mainStep, hp]

theorem commandService_of_idle {s : State} (hp : s.cmdPending = false) :
    commandService s = .next { s with mlPhase := .buttons } := by
  simp [commandService, hp]

/-- A pending command that decodes is run (R170). -/
theorem commandService_of_ok {s : State} {i : Instr} (hp : s.cmdPending = true)
    (hi : fetchCommand s = .ok (.ok i)) : commandService s = exec i s := by
  simp only [commandService, hp, hi, if_true]

/-- A pending command that does not decode is dropped (R171, R316). -/
theorem commandService_of_error {s : State} {e : DecodeError} (hp : s.cmdPending = true)
    (hi : fetchCommand s = .ok (.error e)) :
    commandService s = .next (finishCommand (raise (causeOfDecode e) s)) := by
  simp only [commandService, hp, hi, if_true]

/-- A protocol error counts a dropped message and records its cause; nothing else (R312). -/
theorem raise_of_protocol {c : Cause} (h : Cause.isTransport c = false) (s : State) :
    raise c s = { s with msgDropCnt := satInc s.msgDropCnt, msgErrLast := Cause.code c } := by
  simp [raise, h]

/-- What the decoder rejects is a protocol error (R310). -/
theorem causeOfDecode_protocol (e : DecodeError) : Cause.isTransport (causeOfDecode e) = false := by
  cases e <;> rfl

/-! ### The contact (R252) -/

/-- A step that leaves the cells leaves every inbound byte. -/
theorem sameInbound_of_ib {s t : State} (h : t.ib = s.ib) : Views.SameInbound s t := by
  intro a
  rw [h]

@[simp] theorem contact_ib (s : State) : (contact s).ib = s.ib := by
  rw [contact_frame]

/-- The contact leaves every flag (R21, R252). -/
@[simp] theorem contact_flagOf (f : Flag) (s : State) : flagOf f (contact s).status = flagOf f s.status := by
  unfold contact
  split
  · exact setMode_flagOf f .on s
  · rfl

/-- Neither `WakeUp` nor `PowerUp` (R258). -/
theorem State.isWaking_eq_false {s : State} :
    s.isWaking = false ↔ ¬ (s.mode = some .wakeUp ∨ s.mode = some .powerUp) := by
  rw [← State.isWaking_iff, Bool.not_eq_true]

/-- In `WakeUp` and `PowerUp` the mode is not `On` yet, so the entry to `On` changes it and arms the line (R243, R251). -/
theorem setMode_on_of_waking {s : State} (h : s.mode = some .wakeUp ∨ s.mode = some .powerUp) :
    (setMode .on s).1.irq = true ∧ (setMode .on s).1.pwrTrack = false ∧ (setMode .on s).1.holdCnt = 0 := by
  obtain h | h := h
  · exact setMode_of_ne h (by decide)
  · exact setMode_of_ne h (by decide)

/-- `Contact` does what R252 and R251 say. The statement reads only the registers the contact may write, so it holds as it
stands after an effect that writes others. -/
theorem contactDone_contact (s : State) : Views.ContactDone s (contact s) := by
  unfold Views.ContactDone
  split
  · next hw =>
    obtain ⟨hirq, htrack, hhold⟩ := setMode_on_of_waking hw
    rw [contact_of_waking (State.isWaking_iff.mpr hw)]
    exact ⟨enterOn_mode s, fun f => setMode_flagOf f .on s, hirq, htrack, hhold, rfl, rfl⟩
  · next hw =>
    rw [contact_of_not_waking (State.isWaking_eq_false.mpr hw)]
    exact ⟨rfl, rfl, rfl, rfl, rfl, rfl⟩

/-- What the contact leaves alone stays so when the status byte and the line are written after it. -/
theorem contact_with_status_irq (s : State) (b : Byte) (line : Bool) :
    ({ contact s with status := b, irq := line } : State) =
      { s with
        status := b, irq := line, pwrTrack := (contact s).pwrTrack, holdCnt := (contact s).holdCnt
        confirmed := (contact s).confirmed, wakeTo := (contact s).wakeTo } :=
  congrArg (fun u => { u with status := b, irq := line }) (contact_frame s)

/-! ### The effects of the messages -/

/-- A date-time of the right length is written as it is (R84, R179). -/
theorem writeTime_of_length {d : List Byte} {s : State} (h : d.length = s.params.dtBytes) :
    writeTime d s = { s with time := d } := by
  rw [writeTime, ← h, fitBytes_self]

/-- An alarm of the right length is written as it is (R84, R180). -/
theorem writeAlarm_of_length {d : List Byte} {s : State} (h : d.length = s.params.dtBytes) :
    writeAlarm d s = { s with alarmDt := d } := by
  rw [writeAlarm, ← h, fitBytes_self]

/-- `SET_CLOCK` after the contact, with a date-time of the right length (R179). -/
theorem exec_setClock_of_length {d : List Byte} {s : State} (h : d.length = s.params.dtBytes) :
    exec (.setClock d) s = .next (finishCommand { contact s with time := d }) := by
  have hc : d.length = (contact s).params.dtBytes := by rwa [contact_params]
  rw [exec, execSetClock, serve, writeTime_of_length hc]

/-- `SET_ALARM` after the contact, with a date-time of the right length (R180). -/
theorem exec_setAlarm_of_length {d : List Byte} {s : State} (h : d.length = s.params.dtBytes) :
    exec (.setAlarm d) s = .next (finishCommand { contact s with alarmDt := d }) := by
  have hc : d.length = (contact s).params.dtBytes := by rwa [contact_params]
  rw [exec, execSetAlarm, serve, writeAlarm_of_length hc]

/-- `Reset()` overwrites whatever the contact wrote (R360). -/
theorem resetBlock_contact (s : State) : resetBlock (contact s) = resetBlock s := by
  rw [contact_frame]
  rfl

/-- `Reset()` brings every register to the value of R49. -/
theorem allAtReset_resetBlock (s : State) : Views.AllAtReset (resetBlock s) :=
  allAtReset_resetFor s.params

/-- The two recording messages are the contact followed by `SetFlag(rec, b)` (R176, R177). -/
theorem exec_recording {i : Instr} {b : Bool} (h : (i = .recStart ∧ b = true) ∨ (i = .recStop ∧ b = false)) (s : State) :
    exec i s = .next (finishCommand (setFlag .recording b (contact s)).1) := by
  obtain ⟨rfl, rfl⟩ | ⟨rfl, rfl⟩ := h
  · rfl
  · rfl

/-- After `SetFlag` the line is armed exactly where it was before or the flag changed (R27). -/
theorem setFlag_irq_iff (f : Flag) (b : Bool) (s : State) :
    (setFlag f b s).1.irq = true ↔ s.irq = true ∨ flagOf f s.status ≠ b := by
  rw [setFlag_frame]
  by_cases h : flagOf f s.status = b
  · simp [h]
  · simp [h]

/-- The two haptic replies are dropped with cause 6 (R182, R183). -/
theorem exec_hapticReply {i : Instr} (h : i = .hapticAck ∨ i = .hapticFail) (s : State) :
    exec i s = .next (finishCommand { s with msgDropCnt := satInc s.msgDropCnt, msgErrLast := 6#8 }) := by
  obtain rfl | rfl := h
  · rfl
  · rfl

/-! ### `POWER_DOWN` in each mode (R184) -/

/-- From another mode, the entry to `PowerDown` arms the line and ends the press tracking; it keeps the confirmation and
the wake timeout (R243, R255). -/
theorem enterPowerDown_of_ne {s : State} {m : Mode} (h : s.mode = some m) (hne : m ≠ .powerDown) :
    (enterPowerDown s).mode = some .powerDown ∧ (enterPowerDown s).irq = true ∧ (enterPowerDown s).pwrTrack = false ∧
      (enterPowerDown s).holdCnt = 0 ∧ (enterPowerDown s).confirmed = s.confirmed ∧
      (enterPowerDown s).wakeTo = s.wakeTo := by
  obtain ⟨hirq, htrack, hhold⟩ := setMode_of_ne h hne
  refine ⟨enterPowerDown_mode s, hirq, htrack, hhold, ?_⟩
  rw [enterPowerDown_frame]
  exact ⟨rfl, rfl⟩

/-- From `WakeUp` and `PowerUp` it goes through `On` to `PowerDown` in one step. -/
theorem exec_powerDown_of_waking {s : State} (h : s.mode = some .wakeUp ∨ s.mode = some .powerUp) :
    exec .powerDown s = .next (finishCommand (enterPowerDown (enterOn s))) := by
  rw [exec, execPowerDown, serve, contact_of_waking (State.isWaking_iff.mpr h), if_pos (enterOn_mode s)]

/-- From `On` it goes to `PowerDown`. -/
theorem exec_powerDown_of_on {s : State} (h : s.mode = some .on) :
    exec .powerDown s = .next (finishCommand (enterPowerDown s)) := by
  have hw : s.isWaking = false := State.isWaking_eq_false.mpr (by simp [h])
  rw [exec, execPowerDown, serve, contact_of_not_waking hw, if_pos h]

/-- In every other mode only the service ends. -/
theorem exec_powerDown_of_other {s : State} (hw : ¬ (s.mode = some .wakeUp ∨ s.mode = some .powerUp))
    (ho : s.mode ≠ some .on) : exec .powerDown s = .next (finishCommand s) := by
  rw [exec, execPowerDown, serve, contact_of_not_waking (State.isWaking_eq_false.mpr hw), if_neg ho]

end Sys2Proof.Machine

namespace Sys2Proof.Proofs

open Sys2Proof.Machine

/-- Settles O3: an ordinal has a size exactly in the catalog; validation compares it with the length, and the first byte
selects the message whose encoding has that size (R171, R143). -/
theorem validationOrder : Obligations.ValidationOrder := by
  refine fun dtBytes buf len => ⟨decodeBuffer_unknown, decodeBuffer_hapticAck, decodeBuffer_hapticFail,
    fun size hsize hack hfail => ⟨fun hlt => ?truncated, fun hle => ?complete⟩⟩
  case truncated => exact decodeBuffer_of_invalid (validate_truncated hsize hack hfail hlt)
  case complete =>
    obtain ⟨i, n, hi, he, hn⟩ := encode_messageOf hsize
    refine ⟨i, decodeBuffer_of_valid (validate_of_size_le hsize hle) hi, bytesAt buf 1 n, he, ?_, fun k hk => ?_⟩
    · rwa [bytesAt_length]
    · exact bytesAt_one_getD buf (by rwa [bytesAt_length] at hk)

/-- Settles O28: `SetFlag` after the contact; the contact keeps the flags and `SetFlag` keeps the mode (R176, R177). -/
theorem recordingMessagesSetFlag : Obligations.RecordingMessagesSetFlag := by
  refine ⟨fun _ => decodeMessage_encode_append (i := .recStart) rfl rfl,
    fun _ => decodeMessage_encode_append (i := .recStop) rfl rfl, fun s i b hi => ?_⟩
  refine ⟨_, exec_recording hi s, ?frame, ?flag, fun f hf => ?flags, ?inbound, ?mode⟩
  case frame =>
    rw [setFlag_frame]
    exact congrArg finishCommand (contact_with_status_irq s _ _)
  case flag => simp [setFlag_flagOf]
  case flags => simp [setFlag_flagOf, hf]
  case inbound => exact sameInbound_of_ib (by simp [setFlag_frame])
  case mode =>
    split
    · next hw =>
      have hc := contactDone_contact s
      rw [Views.ContactDone, if_pos hw] at hc
      obtain ⟨hmode, -, hirq, htrack, hhold, hconf, hwake⟩ := hc
      refine ⟨?_, (setFlag_irq_iff _ _ _).mpr (.inl hirq), ?_⟩
      · exact State.mode_eq_some.mpr ((setFlag_modeField _ _ _).trans (State.mode_eq_some.mp hmode))
      · rw [setFlag_frame]
        exact ⟨htrack, hhold, hconf, hwake⟩
    · next hw =>
      rw [contact_of_not_waking (State.isWaking_eq_false.mpr hw)]
      refine ⟨setFlag_modeField _ _ s, setFlag_irq_iff _ _ s, ?_⟩
      rw [setFlag_frame]
      exact ⟨rfl, rfl, rfl, rfl⟩

/-- Settles O34: the contact moves `WakeUp` and `PowerUp` to `On` first, so the message acts in three modes (R184). -/
theorem powerDownActsInOnOnly : Obligations.PowerDownActsInOnOnly := by
  refine ⟨fun _ => decodeMessage_encode_append (i := .powerDown) rfl rfl, fun s => ?_⟩
  by_cases hw : s.mode = some .wakeUp ∨ s.mode = some .powerUp
  · refine ⟨_, exec_powerDown_of_waking hw, ?_, fun f => ?_, sameInbound_of_ib ?_, ?_⟩
    · rw [enterPowerDown_frame, enterOn_frame]
      rfl
    · exact (setMode_flagOf f .powerDown (enterOn s)).trans (setMode_flagOf f .on s)
    · simp [enterPowerDown_frame, enterOn_frame]
    · rw [if_pos hw]
      exact enterPowerDown_of_ne (enterOn_mode s) (by decide)
  · by_cases ho : s.mode = some .on
    · refine ⟨_, exec_powerDown_of_on ho, ?_, fun f => setMode_flagOf f .powerDown s, sameInbound_of_ib ?_, ?_⟩
      · rw [enterPowerDown_frame]
        rfl
      · simp [enterPowerDown_frame]
      · rw [if_neg hw, if_pos ho]
        exact enterPowerDown_of_ne ho (by decide)
    · refine ⟨_, exec_powerDown_of_other hw ho, rfl, fun _ => rfl, fun _ => rfl, ?_⟩
      rw [if_neg hw, if_neg ho]
      rfl

/-- Settles O7: the service fetches from the buffer, which the taking of the event leaves (R170). -/
theorem stepRunsDecodedMessage : Obligations.StepRunsDecodedMessage := by
  intro s b a h rest i he hphase hp hi
  rw [step_of_commandPhase he hphase]
  exact commandService_of_ok hp ((fetchCommand_eq _).trans (congrArg Except.ok hi))

/-- Settles O8: the drop is a protocol error, whose counter saturates (R171, R312, R316). -/
theorem undecodableCommandIsDropped : Obligations.UndecodableCommandIsDropped := by
  intro s b a h rest e he hphase hp hi
  have hdrop := commandService_of_error (s := { s with events := rest, out := .quiet }) hp
    ((fetchCommand_eq _).trans (congrArg Except.ok hi))
  rw [raise_of_protocol (causeOfDecode_protocol e)] at hdrop
  refine ⟨_, (step_of_commandPhase he hphase).trans hdrop, rfl, satInc_toNat _, ?_, fun _ => rfl⟩
  cases e with
  | unknownOrdinal => rfl
  | truncatedPayload => rfl

/-- Settles O9: with no command pending the service writes the phase alone (R170). -/
theorem idleCommandPhaseOnlyAdvances : Obligations.IdleCommandPhaseOnlyAdvances := by
  intro s b a h rest he hphase hp
  rw [step_of_commandPhase he hphase]
  exact commandService_of_idle hp

/-- Settles O25: the service of `NOP` is its end (R173). -/
theorem nopHasNoEffect : Obligations.NopHasNoEffect :=
  ⟨fun _ => decodeMessage_encode_append (i := .nop) rfl rfl, fun _ => ⟨_, rfl, rfl, rfl, fun _ => rfl⟩⟩

/-- Settles O26: the reset overwrites the contact, and the end of the service writes reset values again (R174, R360). -/
theorem resetMessageResetsEverything : Obligations.ResetMessageResetsEverything := by
  refine ⟨fun _ => decodeMessage_encode_append (i := .reset) rfl rfl, fun s => ⟨resetBlock s, ?_,
    allAtReset_resetBlock s, rfl, rfl, rfl, rfl, rfl⟩⟩
  rw [exec, execReset, serve, resetBlock_contact]
  rfl

/-- Settles O27: the service of `INFO` is the contact and its end (R175). -/
theorem infoIsContactOnly : Obligations.InfoIsContactOnly :=
  ⟨fun _ => decodeMessage_encode_append (i := .info) rfl rfl, fun s =>
    ⟨_, rfl, congrArg finishCommand (contact_frame s), contactDone_contact s,
      sameInbound_of_ib (contact_ib s)⟩⟩

/-- Settles O29: the contact, then the write of `brightness` (R178). -/
theorem setBrightnessWritesRegister : Obligations.SetBrightnessWritesRegister := by
  refine ⟨fun _ v rest => ⟨decodeMessage_encode_append (i := .setBrightness v) rfl rfl rest,
    decodeMessage_truncated (size := 2) rfl (by decide)⟩, fun s v => ⟨_, rfl, ?frame, ?contact, ?inbound, rfl⟩⟩
  case frame => exact congrArg (fun u => finishCommand { u with brightness := v }) (contact_frame s)
  case contact => exact contactDone_contact s
  case inbound => exact sameInbound_of_ib (contact_ib s)

/-- Settles O30: the contact, then the write of the time bytes (R179). -/
theorem setClockWritesTime : Obligations.SetClockWritesTime := by
  refine ⟨fun _ => decodeMessage_dateTime (c := .setClock) (fun _ => rfl) (fun _ => rfl) rfl, fun s d hd =>
    ⟨_, exec_setClock_of_length hd, ?frame, ?contact, fun k hk => ?record, ?inbound⟩⟩
  case frame => exact congrArg (fun u => finishCommand { u with time := d }) (contact_frame s)
  case contact => exact contactDone_contact s
  case record =>
    have hkd : k < d.length := hd.symm ▸ hk
    exact (State.recordByte_time _ hkd).trans (List.getD_eq_getElem d 0 hkd).symm
  case inbound => exact sameInbound_of_ib (contact_ib s)

/-- Settles O31: the contact, then the write of the alarm bytes; the contact keeps the alarm flag (R180). -/
theorem setAlarmWritesRegister : Obligations.SetAlarmWritesRegister := by
  refine ⟨fun _ => decodeMessage_dateTime (c := .setAlarm) (fun _ => rfl) (fun _ => rfl) rfl, fun s d hd =>
    ⟨_, exec_setAlarm_of_length hd, ?frame, ?contact, contact_flagOf .alarm s, ?inbound, rfl⟩⟩
  case frame => exact congrArg (fun u => finishCommand { u with alarmDt := d }) (contact_frame s)
  case contact => exact contactDone_contact s
  case inbound => exact sameInbound_of_ib (contact_ib s)

/-- Settles O32: the contact, then the request on its port; a pulse under way is not looked at (R181). -/
theorem hapticEmitsRequest : Obligations.HapticEmitsRequest := by
  refine ⟨fun _ i d rest => ⟨decodeMessage_encode_append (i := .haptic i d) rfl rfl rest,
    decodeMessage_truncated (size := 3) rfl (by simp), decodeMessage_truncated (size := 3) rfl (by simp)⟩,
    fun s i d => ⟨_, rfl, ?frame, ?contact, ?inbound⟩⟩
  case frame => exact congrArg (fun u => finishCommand (startHaptic i d u)) (contact_frame s)
  case contact => exact contactDone_contact s
  case inbound => exact sameInbound_of_ib (contact_ib s)

/-- Settles O33: both replies are the one drop, whose counter saturates (R182, R183). -/
theorem hapticRepliesFromHostDropped : Obligations.HapticRepliesFromHostDropped :=
  ⟨fun _ => decodeMessage_encode_append (i := .hapticAck) rfl rfl,
    fun _ => decodeMessage_encode_append (i := .hapticFail) rfl rfl, fun s _ hi =>
      ⟨_, exec_hapticReply hi s, rfl, satInc_toNat s.msgDropCnt, fun _ => rfl⟩⟩

end Sys2Proof.Proofs
end

section
/-! PROOFS. The bus engine (`42_bus_fsm.md`). Each raw bus condition has one equation per row of the transition table of
R201; what the six have in common is `BusStep`. The two registers that the bus shares with the main loop, the signal
line and `cmd_pending`, are followed through the steps of every agent (R215). -/

namespace Sys2Proof.Machine

/-! ### The recovery of a transport error, and the end of a write (R210, R213, R312) -/

/-- A transport error counts a bus error and records its cause; nothing else (R312). -/
theorem raise_of_transport {c : Cause} (h : Cause.isTransport c = true) (s : State) :
    raise c s = { s with busErrCnt := satInc s.busErrCnt, busErrLast := Cause.code c } := by
  simp [raise, h]

/-- A transport error is counted, its transfer given up, and answered (R213). -/
theorem respond_abort_raise {c : Cause} (h : Cause.isTransport c = true) (r : Response) (s : State) :
    respond r (abort (raise c s)) =
      { s with
        busErrCnt := satInc s.busErrCnt, busErrLast := Cause.code c, busState := .idle
        rxLen := if s.busState = .receivingCommand then 0 else s.rxLen, out := { s.out with resp := some r } } := by
  rw [raise_of_transport h]
  rfl

/-- After the end of a write a command is pending if one was before, or the write stored a byte (R210). -/
theorem pendingAfterEndWrite_iff {s : State} :
    (s.cmdPending || decide (s.busState = .receivingCommand ∧ 1 ≤ s.rxLen)) = true ↔
      s.cmdPending = true ∨ (s.busState = .receivingCommand ∧ 1 ≤ s.rxLen) := by
  rw [Bool.or_eq_true, decide_eq_true_iff]

/-! ### The rows of the transition table (R201) -/

theorem exec_sor (s : State) :
    exec .sor s = .next { s with
      cmdPending := s.cmdPending || decide (s.busState = .receivingCommand ∧ 1 ≤ s.rxLen)
      irq := false, txCur := 0, busState := .sendingState, out := { s.out with resp := some .ack } } := by
  rw [exec, execSor, endWriteIfReceiving_frame]
  rfl

theorem exec_dts_sending {s : State} (h : s.busState = .sendingState) : exec .dts s = .next (sendNextByte s) := by
  rw [exec, execDts, if_pos h]

theorem exec_dts_stray {s : State} (h : s.busState ≠ .sendingState) :
    exec .dts s = .next { s with
      busErrCnt := satInc s.busErrCnt, busErrLast := 2, busState := .idle
      rxLen := if s.busState = .receivingCommand then 0 else s.rxLen
      out := { s.out with resp := some .complete } } := by
  rw [exec, execDts, if_neg h, respond_abort_raise rfl]
  rfl

/-- A write start is refused while a command is pending, or when the write it ends leaves one pending (R204). -/
theorem exec_sow_refused {s : State} (h : s.cmdPending = true ∨ (s.busState = .receivingCommand ∧ 1 ≤ s.rxLen)) :
    exec .sow s = .next { s with cmdPending := true, busState := .idle, out := { s.out with resp := some .nack } } := by
  have hend : endWriteIfReceiving s = { s with cmdPending := true } := by
    rw [endWriteIfReceiving_frame, pendingAfterEndWrite_iff.mpr h]
  rw [exec, execSow, hend]
  rfl

/-- A refused write start leaves the command that was pending (R204). -/
theorem exec_sow_pending {s : State} (hp : s.cmdPending = true) :
    exec .sow s = .next { s with busState := .idle, out := { s.out with resp := some .nack } } := by
  rw [exec_sow_refused (.inl hp), ← hp]

/-- A write start is accepted when no command is pending and the write it ends, if any, stored no byte (R204). -/
theorem exec_sow_accepted {s : State}
    (h : ¬ (s.cmdPending = true ∨ (s.busState = .receivingCommand ∧ 1 ≤ s.rxLen))) :
    exec .sow s =
      .next { s with rxLen := 0, busState := .receivingCommand, out := { s.out with resp := some .ack } } := by
  obtain ⟨hp, hw⟩ := not_or.mp h
  have hend : endWriteIfReceiving s = s := by
    rw [endWriteIfReceiving_frame, decide_eq_false hw, Bool.or_false]
  rw [exec, execSow, hend]
  exact if_neg hp

/-- In a write with room the byte is stored at `rx_len` (R206). -/
theorem exec_drx_receiving {s : State} (hr : s.busState = .receivingCommand) (hroom : s.rxLen < s.params.cap)
    (b : Byte) : exec (.drx b) s = .next (byteStored { s with ib := Memory.write s.ib s.rxLen b }) := by
  have hw : memWrite s s.rxLen [b] = .ok { s with ib := Memory.write s.ib s.rxLen b } := memWrite_ok hroom
  rw [exec, execDrx, if_pos hr, hw]

theorem exec_drx_stray {s : State} (h : s.busState ≠ .receivingCommand) (b : Byte) :
    exec (.drx b) s = .next { s with
      busErrCnt := satInc s.busErrCnt, busErrLast := 3, busState := .idle
      out := { s.out with resp := some .nack } } := by
  rw [exec, execDrx, if_neg h, respond_abort_raise rfl, if_neg h]
  rfl

theorem exec_eot (s : State) :
    exec .eot s = .next { s with
      cmdPending := s.cmdPending || decide (s.busState = .receivingCommand ∧ 1 ≤ s.rxLen)
      busState := .idle, out := { s.out with resp := some .ack } } := by
  rw [exec, execEot, endWriteIfReceiving_frame]
  rfl

theorem exec_other (s : State) :
    exec .other s = .next { s with
      busErrCnt := satInc s.busErrCnt, busErrLast := 1, busState := .idle
      rxLen := if s.busState = .receivingCommand then 0 else s.rxLen
      out := { s.out with resp := some .complete } } := by
  rw [exec, execOther, respond_abort_raise rfl]
  rfl

/-! ### What the six conditions have in common (R214, R215, R340) -/

/-- What a bus condition may do to a state: the registers of interrupt context alone, a command never taken back, the
line never armed, an answer always given, and a pending command's bytes left alone outside a write. -/
structure BusStep (s t : State) : Prop where
  frame : t = { s with
    ib := t.ib, rxLen := t.rxLen, cmdPending := t.cmdPending, busState := t.busState, txCur := t.txCur, irq := t.irq
    busErrCnt := t.busErrCnt, busErrLast := t.busErrLast, out := t.out }
  pending_kept : s.cmdPending = true → t.cmdPending = true
  line_not_armed : t.irq = true → s.irq = true
  answered : t.out.resp.isSome = true
  command_intact : s.cmdPending = true → s.busState ≠ .receivingCommand → t.ib = s.ib ∧ t.rxLen = s.rxLen

theorem busStep_of_next {s t u : State} (h : (.next u : Result) = .next t) (hu : BusStep s u) : BusStep s t := by
  cases h
  exact hu

theorem transportError_busStep {c : Cause} (h : Cause.isTransport c = true) (r : Response) (s : State) :
    BusStep s (respond r (abort (raise c s))) := by
  rw [respond_abort_raise h]
  exact ⟨rfl, id, id, rfl, fun _ hr => ⟨rfl, if_neg hr⟩⟩

theorem execDts_busStep {s t : State} (h : execDts s = .next t) : BusStep s t := by
  unfold execDts at h
  split at h
  · refine busStep_of_next h ?_
    rw [sendNextByte_frame]
    exact ⟨rfl, id, id, rfl, fun _ _ => ⟨rfl, rfl⟩⟩
  · exact busStep_of_next h (transportError_busStep rfl _ s)

theorem execDrx_busStep {b : Byte} {s t : State} (h : execDrx b s = .next t) : BusStep s t := by
  obtain ⟨hr, _, rfl⟩ | ⟨_, rfl⟩ := execDrx_cases h
  · rw [byteStored_frame]
    refine ⟨rfl, fun hp => ?_, id, rfl, fun _ hnot => absurd hr hnot⟩
    simp [hp]
  · exact transportError_busStep rfl _ s

theorem execSow_busStep {s t : State} (h : exec .sow s = .next t) : BusStep s t := by
  by_cases hp : s.cmdPending = true ∨ (s.busState = .receivingCommand ∧ 1 ≤ s.rxLen)
  · rw [exec_sow_refused hp] at h
    exact busStep_of_next h ⟨rfl, fun _ => rfl, id, rfl, fun _ _ => ⟨rfl, rfl⟩⟩
  · rw [exec_sow_accepted hp] at h
    exact busStep_of_next h ⟨rfl, id, id, rfl, fun hpending => absurd (.inl hpending) hp⟩

/-- Each of the six conditions is a bus step (R340). -/
theorem exec_busStep {i : Instr} {s t : State} (hi : ∃ c rx, encode i = .condition c rx) (h : exec i s = .next t) :
    BusStep s t := by
  have hkept : s.cmdPending = true → (s.cmdPending || decide (s.busState = .receivingCommand ∧ 1 ≤ s.rxLen)) = true :=
    fun hp => pendingAfterEndWrite_iff.mpr (.inl hp)
  obtain ⟨c, rx, hi⟩ := hi
  cases i with
  | dts => exact execDts_busStep h
  | drx b => exact execDrx_busStep h
  | sor =>
    rw [exec_sor] at h
    exact busStep_of_next h ⟨rfl, hkept, nofun, rfl, fun _ _ => ⟨rfl, rfl⟩⟩
  | sow => exact execSow_busStep h
  | eot =>
    rw [exec_eot] at h
    exact busStep_of_next h ⟨rfl, hkept, id, rfl, fun _ _ => ⟨rfl, rfl⟩⟩
  | other => exact busStep_of_next h (transportError_busStep rfl _ s)
  | _ => cases hi

/-- A strobe is a bus step, whatever its vector (R200). -/
theorem strobe_busStep {c : BitVec 5} {rx : Byte} {s t : State} (h : exec (decodeBus c rx) s = .next t) :
    BusStep s t :=
  exec_busStep (decodeBus_is_condition c rx) h

/-! ### A write start while a command is pending (R141, R204) -/

/-- A transaction whose start is refused is ended at once (R141). -/
theorem writeTransaction_of_refused {bs : List Byte} {s t u : State} (hsow : feed (.bus 0b00010 0x00) s = .next t)
    (hresp : t.out.resp = some .nack) (heot : feed (.bus 0b00001 0x00) t = .next u) :
    writeTransaction bs s = some (none, u) := by
  simp only [writeTransaction, hsow, nextOf, Option.bind_some, if_pos hresp, heot, Option.map_some]

/-- `SOW` with a command pending leaves the command and its bytes (R204). -/
theorem feed_sow_pending {s : State} (hp : s.cmdPending = true) (rx : Byte) :
    feed (.bus 0b00010 rx) s = .next { s with busState := .idle, out := ⟨some .nack, none, none⟩ } := by
  rw [feed_eq]
  exact exec_sow_pending hp

/-! ### No step stops within the invariants (R215, R311) -/

/-- A message is served to its end, in every state (R170). -/
theorem exec_message {i : Instr} {m : List Byte} (hi : encode i = .message m) (s : State) :
    ∃ u, exec i s = .next (finishCommand u) := by
  cases i with
  | dts | drx | sor | sow | eot | other => cases hi
  | _ => exact ⟨_, rfl⟩

/-- The one stop needs a write without room (R11, R206). -/
theorem exec_next_of_room {s : State} (hroom : s.busState = .receivingCommand → s.rxLen < s.params.cap) (i : Instr) :
    ∃ t, exec i s = .next t := by
  cases i with
  | dts =>
    by_cases hb : s.busState = .sendingState
    · exact ⟨_, exec_dts_sending hb⟩
    · exact ⟨_, exec_dts_stray hb⟩
  | drx b =>
    by_cases hb : s.busState = .receivingCommand
    · exact ⟨_, exec_drx_receiving hb (hroom hb) b⟩
    · exact ⟨_, exec_drx_stray hb b⟩
  | sow =>
    by_cases hp : s.cmdPending = true ∨ (s.busState = .receivingCommand ∧ 1 ≤ s.rxLen)
    · exact ⟨_, exec_sow_refused hp⟩
    · exact ⟨_, exec_sow_accepted hp⟩
  | _ => exact ⟨_, rfl⟩

/-- The command service never stops: what it decodes is a message (R170). -/
theorem commandService_next (s : State) : ∃ t, commandService s = .next t := by
  cases hp : s.cmdPending with
  | false => exact ⟨_, commandService_of_idle hp⟩
  | true =>
    have hfetch := fetchCommand_eq s
    cases hd : decodeBuffer s.params.dtBytes (Memory.readN s.ib 0 s.params.cap) s.rxLen with
    | error e =>
      rw [hd] at hfetch
      exact ⟨_, commandService_of_error hp hfetch⟩
    | ok i =>
      rw [hd] at hfetch
      obtain ⟨m, hm⟩ := fetchCommand_is_message hfetch
      obtain ⟨u, hu⟩ := exec_message hm s
      exact ⟨_, (commandService_of_ok hp hfetch).trans hu⟩

theorem mainStep_next (b : Byte) (a : Half) (r : Bool) (s : State) : ∃ t, mainStep b a r s = .next t := by
  unfold mainStep
  split
  · exact ⟨_, rfl⟩
  · exact ⟨_, rfl⟩
  · exact ⟨_, rfl⟩
  · exact commandService_next s

theorem runEvent_next {s : State} (hs : Invariants s) (e : Event) : ∃ t, runEvent e s = .next t := by
  cases e with
  | bus c rx => exact exec_next_of_room hs.receiving_room (decodeBus c rx)
  | main b a r => exact mainStep_next b a r s
  | _ => exact ⟨_, rfl⟩

/-! ### `cmd_pending` through the steps of every agent (R100, R215 c) -/

@[simp] theorem setFlag_cmdPending (f : Flag) (b : Bool) (s : State) :
    (setFlag f b s).1.cmdPending = s.cmdPending := by
  rw [setFlag_frame]

@[simp] theorem buttonSample_cmdPending (raw : Byte) (s : State) :
    (buttonSample raw s).cmdPending = s.cmdPending := by
  rw [buttonSample_frame]

@[simp] theorem tick_cmdPending (s : State) : (tick s).cmdPending = s.cmdPending := by
  rw [tick_frame]

@[simp] theorem analogSample_cmdPending (a : Half) (s : State) : (analogSample a s).cmdPending = s.cmdPending := by
  rw [analogSample_frame]

@[simp] theorem superviseMode_cmdPending (press p rel : Bool) (s : State) :
    (superviseMode press p rel s).cmdPending = s.cmdPending := by
  rw [superviseMode_frame]

@[simp] theorem supervise_cmdPending (rel : Bool) (s : State) : (supervise rel s).cmdPending = s.cmdPending :=
  superviseMode_cmdPending _ _ rel s

@[simp] theorem envHapticDone_cmdPending (ok : Bool) (s : State) :
    (envHapticDone ok s).cmdPending = s.cmdPending := by
  unfold envHapticDone
  split <;> rfl

@[simp] theorem takeEvent_cmdPending (s : State) : (takeEvent s).cmdPending = s.cmdPending := by
  rw [takeEvent_frame]

@[simp] theorem takeEvent_mlPhase (s : State) : (takeEvent s).mlPhase = s.mlPhase := by
  rw [takeEvent_frame]

/-- The command fetched is that of the buffer, which the taking of an event leaves. -/
@[simp] theorem takeEvent_fetchCommand (s : State) : fetchCommand (takeEvent s) = fetchCommand s := by
  rw [takeEvent_frame]
  rfl

/-- A result known to be one state has that state's flag. -/
theorem cmdPending_of_next {t u : State} {b : Bool} (h : (.next u : Result) = .next t) (hu : u.cmdPending = b) :
    t.cmdPending = b := by
  cases h
  exact hu

/-- After the command service no command is pending (R170). -/
theorem commandService_cmdPending {s t : State} (h : commandService s = .next t) : t.cmdPending = false := by
  obtain ⟨hp, rfl⟩ | ⟨_, e, _, rfl⟩ | ⟨_, i, hi, h⟩ := commandService_cases h
  · exact hp
  · exact finishCommand_cmdPending _
  · obtain ⟨m, hm⟩ := fetchCommand_is_message hi
    obtain ⟨u, hu⟩ := exec_message hm s
    exact cmdPending_of_next (hu.symm.trans h) (finishCommand_cmdPending u)

/-- The main loop writes the flag in phase `Command` alone, and there clears it. -/
theorem mainStep_cmdPending {b : Byte} {a : Half} {r : Bool} {s t : State} (h : mainStep b a r s = .next t) :
    t.cmdPending = s.cmdPending ∨ (s.mlPhase = .command ∧ t.cmdPending = false) := by
  unfold mainStep at h
  split at h
  · exact .inl (cmdPending_of_next h (buttonSample_cmdPending b s))
  · exact .inl (cmdPending_of_next h (analogSample_cmdPending a s))
  · exact .inl (cmdPending_of_next h (supervise_cmdPending r s))
  · next hphase => exact .inr ⟨hphase, commandService_cmdPending h⟩

/-- The flag after any agent's step: kept, or at most set by a strobe, or cleared by the service or a reset. -/
theorem runEvent_cmdPending {e : Event} {s t : State} (h : runEvent e s = .next t) :
    t.cmdPending = s.cmdPending ∨
    ((∃ c rx, e = .bus c rx) ∧ t.cmdPending = true) ∨
    (((∃ b a r, e = .main b a r) ∧ s.mlPhase = .command ∨ e = .reset) ∧ t.cmdPending = false) := by
  cases e with
  | bus c rx =>
    cases ht : t.cmdPending with
    | true => exact .inr (.inl ⟨⟨c, rx, rfl⟩, rfl⟩)
    | false =>
      have hs : s.cmdPending ≠ true := fun hp => by simp [(strobe_busStep h).pending_kept hp] at ht
      exact .inl (Bool.eq_false_iff.mpr hs).symm
  | main b a r =>
    obtain hkept | ⟨hphase, hclear⟩ := mainStep_cmdPending h
    · exact .inl hkept
    · exact .inr (.inr ⟨.inl ⟨⟨b, a, r, rfl⟩, hphase⟩, hclear⟩)
  | reset => exact .inr (.inr ⟨.inr rfl, cmdPending_of_next h rfl⟩)
  | tick => exact .inl (cmdPending_of_next h (tick_cmdPending s))
  | wake => exact .inl (cmdPending_of_next h rfl)
  | setFlag f b => exact .inl (cmdPending_of_next h (setFlag_cmdPending _ b s))
  | clockAdvance v => exact .inl (cmdPending_of_next h (writeTime_cmdPending v s))
  | hapticDone ok => exact .inl (cmdPending_of_next h (envHapticDone_cmdPending ok s))

/-! ### The signal line through the steps of every agent (R215 e, R326)

Only a read start and a reset clear the line; every other operation keeps it asserted. -/

theorem setFlag_keeps_irq (f : Flag) (b : Bool) {s : State} (h : s.irq = true) : (setFlag f b s).1.irq = true :=
  (setFlag_irq_iff f b s).mpr (.inl h)

/-- `SetMode` arms the line or leaves it, and so does each mode entry, which writes it through `SetMode` alone. -/
theorem setMode_keeps_irq (m : Mode) {s : State} (h : s.irq = true) : (setMode m s).1.irq = true := by
  rw [setMode_frame]
  simp [h]

theorem contact_keeps_irq {s : State} (h : s.irq = true) : (contact s).irq = true := by
  unfold contact
  split
  · exact setMode_keeps_irq .on h
  · exact h

theorem buttonSample_keeps_irq (raw : Byte) {s : State} (h : s.irq = true) : (buttonSample raw s).irq = true := by
  rw [buttonSample_frame]
  simp [h]

theorem analogSample_keeps_irq (a : Half) {s : State} (h : s.irq = true) : (analogSample a s).irq = true := by
  unfold analogSample storeSample
  split
  · dsimp only
    split
    · exact h
    · rfl
  · exact h

theorem tick_keeps_irq {s : State} (h : s.irq = true) : (tick s).irq = true := by
  rwa [tick_frame]

theorem wakeHaptic_keeps_irq {s : State} (h : s.irq = true) : (wakeHaptic s).irq = true := by
  rwa [wakeHaptic_frame]

theorem superviseUnconfirmed_keeps_irq (p : Bool) {s : State} (h : s.irq = true) :
    (superviseUnconfirmed p s).irq = true := by
  unfold superviseUnconfirmed
  split
  · exact wakeHaptic_keeps_irq h
  · split
    · exact h
    · exact setMode_keeps_irq .sleep h

/-- The timeout of a wake keeps the line asserted (R249). -/
theorem wakeTimeout_keeps_irq {u : State} (h : u.irq = true) :
    (if u.isWaking && u.wakeTo == 0#16 then enterSleep u else u).irq = true := by
  split
  · exact setMode_keeps_irq .sleep h
  · exact h

theorem superviseWaking_keeps_irq (p : Bool) {s : State} (h : s.irq = true) : (superviseWaking p s).irq = true := by
  refine wakeTimeout_keeps_irq (u := if s.confirmed then s else superviseUnconfirmed p s) ?_
  split
  · exact h
  · exact superviseUnconfirmed_keeps_irq p h

/-- The end of a tracked press in `On` keeps the line asserted (R253, R254). -/
theorem pressEnd_keeps_irq (p : Bool) {u : State} (h : u.irq = true) :
    (if u.pwrTrack then
      if u.params.longPressTicks ≤ u.holdCnt.toNat then enterSleep u else if p then u else enterPowerDown u
      else u).irq = true := by
  split
  · split
    · exact setMode_keeps_irq .sleep h
    · split
      · exact h
      · exact setMode_keeps_irq .powerDown h
  · exact h

theorem superviseOn_keeps_irq (press p : Bool) {s : State} (h : s.irq = true) : (superviseOn press p s).irq = true := by
  refine pressEnd_keeps_irq p (u := if press then { s with pwrTrack := true, holdCnt := 0 } else s) ?_
  split
  · exact h
  · exact h

theorem supervise_keeps_irq (rel : Bool) {s : State} (h : s.irq = true) : (supervise rel s).irq = true := by
  change (superviseMode (s.powerButton && !s.pwrPrev) s.powerButton rel s).irq = true
  unfold superviseMode
  split
  · unfold superviseSleep
    split
    · exact setMode_keeps_irq .wakeUp h
    · exact h
  · exact superviseWaking_keeps_irq _ h
  · exact superviseWaking_keeps_irq _ h
  · exact superviseOn_keeps_irq _ _ h
  · unfold supervisePowerDown
    split
    · exact setMode_keeps_irq .sleep h
    · exact h
  · exact h

@[simp] theorem envHapticDone_irq (ok : Bool) (s : State) : (envHapticDone ok s).irq = s.irq := by
  unfold envHapticDone
  split <;> rfl

@[simp] theorem takeEvent_irq (s : State) : (takeEvent s).irq = s.irq := by
  rw [takeEvent_frame]

/-- A result known to be one state has that state's line. -/
theorem irq_of_next {t u : State} (h : (.next u : Result) = .next t) (hu : u.irq = true) : t.irq = true := by
  cases h
  exact hu

/-- A served message keeps the line asserted when its own effect does (R172). -/
theorem serve_keeps_irq {effect : State → State} {s t : State} (h : serve effect s = .next t) (hs : s.irq = true)
    (he : ∀ u : State, u.irq = true → (effect u).irq = true) : t.irq = true :=
  irq_of_next h (he _ (contact_keeps_irq hs))

theorem transportError_irq (c : Cause) (r : Response) (s : State) :
    (respond r (abort (raise c s))).irq = s.irq := by
  rw [raise_frame]
  rfl

theorem execDts_keeps_irq {s t : State} (h : execDts s = .next t) (hs : s.irq = true) : t.irq = true := by
  unfold execDts at h
  split at h
  · refine irq_of_next h ?_
    rwa [sendNextByte_frame]
  · exact irq_of_next h ((transportError_irq _ _ s).trans hs)

theorem execDrx_keeps_irq {b : Byte} {s t : State} (h : execDrx b s = .next t) (hs : s.irq = true) :
    t.irq = true := by
  obtain ⟨_, _, rfl⟩ | ⟨_, rfl⟩ := execDrx_cases h
  · rwa [byteStored_frame]
  · exact (transportError_irq _ _ s).trans hs

theorem execSow_keeps_irq {s t : State} (h : exec .sow s = .next t) (hs : s.irq = true) : t.irq = true := by
  by_cases hp : s.cmdPending = true ∨ (s.busState = .receivingCommand ∧ 1 ≤ s.rxLen)
  · rw [exec_sow_refused hp] at h
    exact irq_of_next h hs
  · rw [exec_sow_accepted hp] at h
    exact irq_of_next h hs

/-- Every instruction but `SOR` and `RESET` keeps the line asserted. -/
theorem exec_keeps_irq {i : Instr} {s t : State} (hsor : i ≠ .sor) (hreset : i ≠ .reset) (h : exec i s = .next t)
    (hs : s.irq = true) : t.irq = true := by
  cases i with
  | nop => exact irq_of_next h hs
  | reset => exact absurd rfl hreset
  | info => exact serve_keeps_irq h hs fun _ hu => hu
  | recStart =>
    rw [exec_recording (.inl ⟨rfl, rfl⟩)] at h
    exact irq_of_next h (setFlag_keeps_irq .recording true (contact_keeps_irq hs))
  | recStop =>
    rw [exec_recording (.inr ⟨rfl, rfl⟩)] at h
    exact irq_of_next h (setFlag_keeps_irq .recording false (contact_keeps_irq hs))
  | setBrightness v => exact irq_of_next h (contact_keeps_irq hs)
  | setClock dt => exact irq_of_next h (contact_keeps_irq hs)
  | setAlarm dt => exact irq_of_next h (contact_keeps_irq hs)
  | haptic i d => exact irq_of_next h (contact_keeps_irq hs)
  | hapticAck => exact irq_of_next h hs
  | hapticFail => exact irq_of_next h hs
  | powerDown =>
    simp only [exec, execPowerDown] at h
    refine serve_keeps_irq h hs fun u hu => ?_
    split
    · exact setMode_keeps_irq .powerDown hu
    · exact hu
  | dts => exact execDts_keeps_irq h hs
  | drx b => exact execDrx_keeps_irq h hs
  | sor => exact absurd rfl hsor
  | sow => exact execSow_keeps_irq h hs
  | eot =>
    rw [exec_eot] at h
    exact irq_of_next h hs
  | other => exact irq_of_next h ((transportError_irq _ _ s).trans hs)

/-- The command service clears the line with `RESET` alone. -/
theorem commandService_irq {s t : State} (h : commandService s = .next t) (hs : s.irq = true) :
    t.irq = true ∨ (s.cmdPending = true ∧ fetchCommand s = .ok (.ok .reset)) := by
  obtain ⟨_, rfl⟩ | ⟨_, e, _, rfl⟩ | ⟨hp, i, hi, h⟩ := commandService_cases h
  · exact .inl hs
  · rw [raise_frame]
    exact .inl hs
  · by_cases hreset : i = .reset
    · exact .inr ⟨hp, hreset ▸ hi⟩
    · obtain ⟨m, hm⟩ := fetchCommand_is_message hi
      have hsor : i ≠ .sor := by
        rintro rfl
        cases hm
      exact .inl (exec_keeps_irq hsor hreset h hs)

theorem mainStep_irq {b : Byte} {a : Half} {r : Bool} {s t : State} (h : mainStep b a r s = .next t)
    (hs : s.irq = true) :
    t.irq = true ∨ (s.mlPhase = .command ∧ s.cmdPending = true ∧ fetchCommand s = .ok (.ok .reset)) := by
  unfold mainStep at h
  split at h
  · exact .inl (irq_of_next h (buttonSample_keeps_irq b hs))
  · exact .inl (irq_of_next h (analogSample_keeps_irq a hs))
  · exact .inl (irq_of_next h (supervise_keeps_irq r hs))
  · next hphase => exact (commandService_irq h hs).imp_right fun hreset => ⟨hphase, hreset⟩

/-- An asserted line after any agent's step: asserted, or the step is a read start or a reset. -/
theorem runEvent_irq {e : Event} {s t : State} (h : runEvent e s = .next t) (hs : s.irq = true) :
    t.irq = true ∨ (∃ c rx, e = .bus c rx ∧ decodeBus c rx = .sor) ∨ e = .reset ∨
      ((∃ b a r, e = .main b a r) ∧ s.mlPhase = .command ∧ s.cmdPending = true ∧
        fetchCommand s = .ok (.ok .reset)) := by
  cases e with
  | bus c rx =>
    by_cases hsor : decodeBus c rx = .sor
    · exact .inr (.inl ⟨c, rx, rfl, hsor⟩)
    · have hreset : decodeBus c rx ≠ .reset := by
        obtain ⟨v, w, hcond⟩ := decodeBus_is_condition c rx
        intro hr
        rw [hr] at hcond
        cases hcond
      exact .inl (exec_keeps_irq hsor hreset h hs)
  | main b a r =>
    obtain hkept | hreset := mainStep_irq h hs
    · exact .inl hkept
    · exact .inr (.inr (.inr ⟨⟨b, a, r, rfl⟩, hreset⟩))
  | reset => exact .inr (.inr (.inl rfl))
  | tick => exact .inl (irq_of_next h (tick_keeps_irq hs))
  | wake => exact .inl (irq_of_next h hs)
  | setFlag f b => exact .inl (irq_of_next h (setFlag_keeps_irq _ b hs))
  | clockAdvance v => exact .inl (irq_of_next h hs)
  | hapticDone ok => exact .inl (irq_of_next h ((envHapticDone_irq ok s).trans hs))

end Sys2Proof.Machine

namespace Sys2Proof.Proofs

open Sys2Proof.Machine

/-- Settles O13: the one fault needs a write without room, which the invariants exclude (R48 item 3, R215 f). -/
theorem invariantStatesAlwaysStep : Obligations.InvariantStatesAlwaysStep :=
  fun _ hs => runEvent_next (takeEvent_invariants hs) _

/-- Settles O24: each condition is a bus step (R340). -/
theorem busConditionsWriteBusRegistersOnly : Obligations.BusConditionsWriteBusRegistersOnly := by
  intro s t i hi h
  obtain ⟨hframe, hkept, hline, hanswer, hintact⟩ := exec_busStep hi h
  exact ⟨hframe, hkept, hline, hanswer, hintact⟩

/-- Settles O47: every operation but the read start and the reset keeps an asserted line (R326). -/
theorem lineClearedOnlyByReadStartOrReset : Obligations.LineClearedOnlyByReadStartOrReset := by
  intro s t h hs ht
  obtain hkept | hsor | hreset | ⟨hmain, hphase, hp, hfetch⟩ := runEvent_irq h ((takeEvent_irq s).trans hs)
  · simp [hkept] at ht
  · exact .inl hsor
  · exact .inr (.inl hreset)
  · rw [takeEvent_mlPhase] at hphase
    rw [takeEvent_cmdPending] at hp
    rw [takeEvent_fetchCommand] at hfetch
    exact .inr (.inr ⟨⟨hmain, hphase⟩, hp, hfetch⟩)

/-- Settles O49: a strobe never clears the flag, the service and the reset never set it, and no other step writes it
(R31, R100). -/
theorem pendingFlagIsTheHandoff : Obligations.PendingFlagIsTheHandoff := by
  intro s t h
  have hcases := runEvent_cmdPending h
  rw [takeEvent_cmdPending, takeEvent_mlPhase] at hcases
  refine ⟨fun hs ht => ?set, fun hs ht => ?cleared⟩
  case set =>
    obtain hkept | ⟨hbus, _⟩ | ⟨_, hclear⟩ := hcases
    · simp [hs, ht] at hkept
    · exact hbus
    · simp [ht] at hclear
  case cleared =>
    obtain hkept | ⟨_, hset⟩ | ⟨hagent, _⟩ := hcases
    · simp [hs, ht] at hkept
    · simp [ht] at hset
    · exact hagent

/-- Settles O6: a step serves the next input, and a strobe's is the decoded condition (R200). -/
theorem stepRunsDecodedCondition : Obligations.StepRunsDecodedCondition :=
  fun _ _ _ _ h => step_of_cons h

/-- Settles O15: the end of the write, if one was open, then the read start (R202). -/
theorem sorStartsRead : Obligations.SorStartsRead := by
  refine ⟨fun c rx hrow => ?_, fun s => ⟨_, exec_sor s, rfl, pendingAfterEndWrite_iff, fun _ => rfl⟩⟩
  obtain ⟨_, _, hsor, _⟩ := conditionPriority c rx
  exact hsor.mp hrow

/-- Settles O16: both rows of `DTS` in a read (R203). -/
theorem dtsSendsLiveByte : Obligations.DtsSendsLiveByte := by
  refine ⟨fun c rx hrow => ?_, fun s hs => ⟨_, exec_dts_sending hs, ?_⟩⟩
  · obtain ⟨hdts, _⟩ := conditionPriority c rx
    exact hdts.mp hrow
  · rw [sendNextByte_frame]
    refine ⟨fun _ => rfl, fun hlt => ?_, fun hge => ?_⟩
    · simp only [if_pos hlt]
    · simp only [if_neg hge.not_gt]

/-- Settles O17: error 2 and its recovery (R209, R213). -/
theorem strayDtsAborts : Obligations.StrayDtsAborts :=
  fun s hs => ⟨_, exec_dts_stray hs, rfl, satInc_toNat s.busErrCnt, fun _ => rfl⟩

/-- Settles O18: the two outcomes of a write start (R204). -/
theorem sowAcceptsOnlyWhenNothingPending : Obligations.SowAcceptsOnlyWhenNothingPending := by
  refine ⟨fun c rx hrow => ?_, fun s => ?_⟩
  · obtain ⟨_, _, _, hsow, _⟩ := conditionPriority c rx
    exact hsow.mp hrow
  · by_cases hp : s.cmdPending = true ∨ (s.busState = .receivingCommand ∧ 1 ≤ s.rxLen)
    · exact ⟨_, exec_sow_refused hp, fun _ => rfl, by rw [if_pos hp]⟩
    · exact ⟨_, exec_sow_accepted hp, fun _ => rfl, by rw [if_neg hp]⟩

/-- Settles O19: the byte is written at `rx_len` alone, then counted (R206). -/
theorem drxStoresByte : Obligations.DrxStoresByte := by
  refine ⟨fun c rx hrow => ?_, fun s b hr hroom hwf => ⟨_, exec_drx_receiving hr hroom b, ?_⟩⟩
  · obtain ⟨_, hdrx, _⟩ := conditionPriority c rx
    exact hdrx.mp hrow
  · have hread := fun a => Memory.read_write hwf s.rxLen a b
    rw [byteStored_frame]
    refine ⟨?frame, ?stored, fun a ha => ?others, Memory.wf_write hwf s.rxLen b⟩
    case frame => simp only [hr]
    case stored => exact (hread _).trans (if_pos rfl)
    case others => exact (hread a).trans (if_neg ha)

/-- Settles O20: error 3; outside a write its recovery discards nothing (R207, R213). -/
theorem strayDrxRefused : Obligations.StrayDrxRefused :=
  fun s b hs => ⟨_, exec_drx_stray hs b, rfl, satInc_toNat s.busErrCnt, fun _ => rfl⟩

/-- Settles O22: the end of the write, if one was open, and `Idle` (R208). -/
theorem eotEndsTransaction : Obligations.EotEndsTransaction := by
  refine ⟨fun c rx hrow => ?_, fun s => ⟨_, exec_eot s, rfl, pendingAfterEndWrite_iff, fun _ => rfl⟩⟩
  obtain ⟨_, _, _, _, heot, _⟩ := conditionPriority c rx
  exact heot.mp hrow

/-- Settles O23: error 1 and its recovery (R212, R213). -/
theorem otherAborts : Obligations.OtherAborts := by
  refine ⟨fun c rx hrow => ?_, fun s => ⟨_, exec_other s, rfl, satInc_toNat s.busErrCnt, fun _ => rfl⟩⟩
  obtain ⟨_, _, _, _, _, hother⟩ := conditionPriority c rx
  exact hother.mp hrow

/-- Settles O52: the start is refused, which leaves the write closed, so its end finds nothing to end (R204, R208). -/
theorem pendingCommandRefusesWrites : Obligations.PendingCommandRefusesWrites :=
  fun _ _ hp => writeTransaction_of_refused (feed_sow_pending hp _) rfl (feed_eot_of_not_receiving (by simp) _)

end Sys2Proof.Proofs
end

section
/-! PROOFS. The supervisor and the environment (`43_supervisor.md`). The supervisor's step has one equation per rule of
each mode (R246 to R257). From them come the lines of the transition table it takes (`SupervisorLine`); the messages
take the others (`CommandLine`), and no other step writes the mode (R242). -/

namespace Sys2Proof.Machine

open Sys2Proof.Views

/-! ### The step of the main loop in phase `Supervisor` (R240, R245) -/

theorem pressEdge_iff {s : State} : PressEdge s ↔ (s.powerButton && !s.pwrPrev) = true := by
  simp [PressEdge, State.powerButton]

theorem press_eq_false {s : State} (h : ¬ PressEdge s) : (s.powerButton && !s.pwrPrev) = false :=
  Bool.eq_false_iff.mpr fun hp => h (pressEdge_iff.mpr hp)

/-- A step in phase `Supervisor` applies the rules of the mode, then stores the button's level and advances the phase;
it stays within the supervisor's registers whatever the rules do. -/
theorem mainStep_supervisor {s u : State} {b : Byte} {a : Half} {r : Bool} (hphase : s.mlPhase = .supervisor)
    (hu : superviseMode (s.powerButton && !s.pwrPrev) s.powerButton r s = u) :
    mainStep b a r s = .next { u with pwrPrev := s.powerButton, mlPhase := .command } ∧
      SupervisorFrame s { u with pwrPrev := s.powerButton, mlPhase := .command } := by
  have hframe := superviseMode_frame (s.powerButton && !s.pwrPrev) s.powerButton r s
  rw [hu] at hframe
  have hnext : u.mlPhase.next = .command := by
    rw [hframe, hphase]
    rfl
  have hend := congrArg (fun v : State => { v with pwrPrev := s.powerButton, mlPhase := .command }) hframe
  refine ⟨?_, hend⟩
  simp only [mainStep, hphase, advancePhase, supervise, hu, hnext]

/-! ### The mode entries; none of them touches the ports or the haptic bit (R244, R246, R255) -/

theorem quietHaptic_trans {s u t : State} (hu : QuietHaptic s u) (ht : QuietHaptic u t) : QuietHaptic s t := by
  obtain ⟨hout, hactive⟩ := hu
  obtain ⟨hout', hactive'⟩ := ht
  exact ⟨hout'.trans hout, hactive'.trans hactive⟩

theorem enterSleep_quietHaptic (s : State) : QuietHaptic s (enterSleep s) := by
  rw [enterSleep_frame]
  exact ⟨rfl, rfl⟩

/-- From any other mode an entry to `Sleep` is complete; what the step wrote before it, the status byte excepted, does
not matter (R244). -/
theorem sleepEntered_enterSleep {s u : State} {m : Mode} (hm : s.mode = some m) (hne : m ≠ .sleep)
    (hstatus : u.status = s.status) : SleepEntered s (enterSleep u) := by
  obtain ⟨hirq, htrack, hhold⟩ := setMode_of_ne ((State.mode_congr hstatus).trans hm) hne
  refine ⟨enterSleep_mode u, fun f => ?_, hirq, rfl, rfl, rfl, rfl, rfl, rfl, htrack, hhold⟩
  exact hstatus ▸ setMode_flagOf f .sleep u

theorem enterWakeUp_quietHaptic (s : State) : QuietHaptic s (enterWakeUp s) := by
  rw [enterWakeUp_frame]
  exact ⟨rfl, rfl⟩

theorem enterWakeUp_wakeTo (s : State) : (enterWakeUp s).wakeTo = BitVec.ofNat 16 s.params.wakeTimeoutTicks := by
  rw [enterWakeUp_frame]

theorem enterWakeUp_sampleDue (s : State) : (enterWakeUp s).sampleDue = s.sampleDue := by
  rw [enterWakeUp_frame]

/-- The rail and the sampling stay as they are: the host still runs (R255). -/
theorem enterPowerDown_supply (s : State) :
    (enterPowerDown s).railEn = s.railEn ∧ (enterPowerDown s).samplingEn = s.samplingEn ∧
      (enterPowerDown s).sampleDue = s.sampleDue ∧ (enterPowerDown s).muxDiv = s.muxDiv := by
  rw [enterPowerDown_frame]
  exact ⟨rfl, rfl, rfl, rfl⟩

theorem enterPowerDown_quietHaptic (s : State) : QuietHaptic s (enterPowerDown s) := by
  rw [enterPowerDown_frame]
  exact ⟨rfl, rfl⟩

/-! ### The rules of each mode (R246 to R257) -/

theorem superviseMode_of_sleep {s : State} (hm : s.mode = some .sleep) (press p r : Bool) :
    superviseMode press p r s = superviseSleep press s := by
  simp only [superviseMode, hm]

theorem superviseMode_of_waking {s : State} (hm : s.mode = some .wakeUp ∨ s.mode = some .powerUp) (press p r : Bool) :
    superviseMode press p r s = superviseWaking p s := by
  obtain hm | hm := hm
  · simp only [superviseMode, hm]
  · simp only [superviseMode, hm]

theorem superviseMode_of_on {s : State} (hm : s.mode = some .on) (press p r : Bool) :
    superviseMode press p r s = superviseOn press p s := by
  simp only [superviseMode, hm]

theorem superviseMode_of_powerDown {s : State} (hm : s.mode = some .powerDown) (press p r : Bool) :
    superviseMode press p r s = supervisePowerDown r s := by
  simp only [superviseMode, hm]

/-! ### `Sleep` and `PowerDown`: one trigger each (R246, R256, R257) -/

@[simp] theorem superviseSleep_true (s : State) : superviseSleep true s = enterWakeUp s := rfl

@[simp] theorem superviseSleep_false (s : State) : superviseSleep false s = s := rfl

theorem superviseSleep_quietHaptic (press : Bool) (s : State) : QuietHaptic s (superviseSleep press s) := by
  cases press with
  | true => exact enterWakeUp_quietHaptic s
  | false => exact ⟨rfl, rfl⟩

@[simp] theorem supervisePowerDown_true (s : State) : supervisePowerDown true s = enterSleep s := rfl

@[simp] theorem supervisePowerDown_false (s : State) : supervisePowerDown false s = s := rfl

theorem supervisePowerDown_quietHaptic (r : Bool) (s : State) : QuietHaptic s (supervisePowerDown r s) := by
  cases r with
  | true => exact enterSleep_quietHaptic s
  | false => exact ⟨rfl, rfl⟩

/-! ### `WakeUp`: the confirmation, the release, the timeout (R247 to R250) -/

/-- The press in `WakeUp` has just reached the threshold (R248). -/
abbrev ConfirmsPress (s : State) : Prop := s.confirmed = false ∧ s.params.wakeHoldTicks ≤ s.holdCnt.toNat

/-- The press in `WakeUp` was released below the threshold (R247). -/
abbrev EarlyRelease (s : State) : Prop :=
  s.confirmed = false ∧ s.holdCnt.toNat < s.params.wakeHoldTicks ∧ s.buttons.getLsbD s.params.pwrBtn = false

/-- The confirmation of a press that has just reached the threshold, with its haptic request (R248, R265). -/
def confirmPress (s : State) : State := if ConfirmsPress s then wakeHaptic { s with confirmed := true } else s

theorem confirmPress_frame (s : State) :
    confirmPress s =
      { s with
        confirmed := (confirmPress s).confirmed, out := (confirmPress s).out
        hapticActive := (confirmPress s).hapticActive } := by
  unfold confirmPress
  split
  · rw [wakeHaptic_frame]
  · rfl

/-- After the confirmation rule the press is confirmed exactly where it was before or has reached the threshold
(R248). -/
theorem confirmPress_confirmed {s : State} :
    (confirmPress s).confirmed = true ↔ s.confirmed = true ∨ s.params.wakeHoldTicks ≤ s.holdCnt.toNat := by
  unfold confirmPress
  split
  · next hc =>
    obtain ⟨_, hreached⟩ := hc
    rw [wakeHaptic_frame]
    exact ⟨fun _ => .inr hreached, fun _ => rfl⟩
  · next hc =>
    refine ⟨.inl, fun h => h.elim id fun hreached => ?_⟩
    exact Bool.eq_true_of_not_eq_false fun hconf => hc ⟨hconf, hreached⟩

/-- A confirmation drives the haptic port exactly as the parameters say; without one the ports stay (R248, R265). -/
theorem confirmPress_haptic (s : State) :
    if ConfirmsPress s then
      (∀ i d, s.params.wakeHaptic = some (i, d) →
        (confirmPress s).hapticActive = true ∧ (confirmPress s).out = { s.out with hapticReq := some (i, d) }) ∧
      (s.params.wakeHaptic = none → QuietHaptic s (confirmPress s))
    else QuietHaptic s (confirmPress s) := by
  unfold confirmPress
  split
  · refine ⟨fun i d hpulse => ?_, fun hnone => ?_⟩
    · simp only [wakeHaptic, hpulse, startHaptic_hapticActive, true_and]
      rfl
    · simp only [wakeHaptic, hnone]
      exact ⟨rfl, rfl⟩
  · exact ⟨rfl, rfl⟩

/-- A release below the threshold goes back to `Sleep`, where the timeout no longer applies (R247). -/
theorem superviseWaking_of_earlyRelease {s : State} (h : EarlyRelease s) :
    superviseWaking s.powerButton s = enterSleep s := by
  obtain ⟨hconf, hbelow, hup : s.powerButton = false⟩ := h
  have hu : superviseUnconfirmed false s = enterSleep s := by
    simp only [superviseUnconfirmed, if_neg hbelow.not_ge, Bool.false_eq_true, if_false]
  have hw : (enterSleep s).isWaking = false := State.isWaking_eq_false.mpr (by simp)
  simp only [superviseWaking, hconf, hup, hu, hw, Bool.false_eq_true, Bool.false_and, if_false]

/-- Otherwise the confirmation comes first, then the timeout (R248, R249, R250). -/
theorem superviseWaking_of_not_earlyRelease {s : State} (hm : s.mode = some .wakeUp ∨ s.mode = some .powerUp)
    (h : ¬ EarlyRelease s) :
    superviseWaking s.powerButton s = if s.wakeTo = 0#16 then enterSleep (confirmPress s) else confirmPress s := by
  have hu : (if s.confirmed then s else superviseUnconfirmed s.powerButton s) = confirmPress s := by
    unfold confirmPress superviseUnconfirmed
    by_cases hconf : s.confirmed = true
    · simp [ConfirmsPress, hconf]
    · rw [Bool.not_eq_true] at hconf
      by_cases hreached : s.params.wakeHoldTicks ≤ s.holdCnt.toNat
      · simp [ConfirmsPress, hconf, hreached]
      · have hheld : s.powerButton = true :=
          Bool.eq_true_of_not_eq_false fun hup => h ⟨hconf, Nat.lt_of_not_ge hreached, hup⟩
        simp [ConfirmsPress, hconf, hreached, hheld]
  have hw : (confirmPress s).isWaking = true := by
    rw [confirmPress_frame]
    exact State.isWaking_iff.mpr hm
  have ht : (confirmPress s).wakeTo = s.wakeTo := by
    rw [confirmPress_frame]
  simp only [superviseWaking, hu, hw, ht, Bool.true_and, beq_iff_eq]

/-! ### `On`: the press edge, the long and the short press (R253, R254) -/

/-- A press edge only starts the tracking: at 0 ticks it is below the long threshold, and it is not released (R253). -/
theorem superviseOn_of_press {s : State} (hlong : 1 ≤ s.params.longPressTicks) :
    superviseOn true true s = { s with pwrTrack := true, holdCnt := 0 } := by
  have hbelow : ¬ s.params.longPressTicks ≤ 0 := by omega
  simp [superviseOn, hbelow]

theorem superviseOn_of_untracked {s : State} (ht : s.pwrTrack = false) (p : Bool) : superviseOn false p s = s := by
  simp [superviseOn, ht]

theorem superviseOn_of_long {s : State} (ht : s.pwrTrack = true) (hlong : s.params.longPressTicks ≤ s.holdCnt.toNat)
    (p : Bool) : superviseOn false p s = enterSleep s := by
  simp [superviseOn, ht, hlong]

theorem superviseOn_of_short {s : State} (ht : s.pwrTrack = true) (hshort : s.holdCnt.toNat < s.params.longPressTicks) :
    superviseOn false false s = enterPowerDown s := by
  simp [superviseOn, ht, hshort.not_ge]

theorem superviseOn_of_held {s : State} (hshort : s.holdCnt.toNat < s.params.longPressTicks) :
    superviseOn false true s = s := by
  simp [superviseOn, hshort.not_ge]

/-- The end of a tracked press touches neither the ports nor the haptic bit. -/
theorem pressEnd_quietHaptic (p : Bool) {s u : State} (hu : QuietHaptic s u) :
    QuietHaptic s (if u.pwrTrack then
      if u.params.longPressTicks ≤ u.holdCnt.toNat then enterSleep u else if p then u else enterPowerDown u
      else u) := by
  split
  · split
    · exact quietHaptic_trans hu (enterSleep_quietHaptic u)
    · split
      · exact hu
      · exact quietHaptic_trans hu (enterPowerDown_quietHaptic u)
  · exact hu

theorem superviseOn_quietHaptic (press p : Bool) (s : State) : QuietHaptic s (superviseOn press p s) := by
  refine pressEnd_quietHaptic p (u := if press then { s with pwrTrack := true, holdCnt := 0 } else s) ?_
  split
  · exact ⟨rfl, rfl⟩
  · exact ⟨rfl, rfl⟩

/-! ### The lines of the transition table (R242) -/

/-- The lines that the supervisor's step takes, `r` being `host_released`: from a mode, to a mode, and the trigger. -/
inductive SupervisorLine (s : State) (r : Bool) : Mode → Mode → Prop
  | press (h : PressEdge s) : SupervisorLine s r .sleep .wakeUp
  | earlyRelease (h : EarlyRelease s) : SupervisorLine s r .wakeUp .sleep
  | timeout (h : s.wakeTo = 0#16) : SupervisorLine s r .wakeUp .sleep
  | shortPress (ht : s.pwrTrack = true) (hshort : s.holdCnt.toNat < s.params.longPressTicks)
      (hup : s.buttons.getLsbD s.params.pwrBtn = false) : SupervisorLine s r .on .powerDown
  | longPress (ht : s.pwrTrack = true) (hl : s.params.longPressTicks ≤ s.holdCnt.toNat) : SupervisorLine s r .on .sleep
  | hostReleased (hr : r = true) : SupervisorLine s r .powerDown .sleep

/-- The lines that a served message takes; every contact but `RESET` and `POWER_DOWN` leads to `On`. -/
inductive CommandLine (i : Instr) : Mode → Mode → Prop
  | contact (hnop : i ≠ .nop) (hack : i ≠ .hapticAck) (hfail : i ≠ .hapticFail) (hreset : i ≠ .reset)
      (hdown : i ≠ .powerDown) : CommandLine i .wakeUp .on
  | powerDownWaking (h : i = .powerDown) : CommandLine i .wakeUp .powerDown
  | powerDownOn (h : i = .powerDown) : CommandLine i .on .powerDown
  | reset (h : i = .reset) (m : Mode) : CommandLine i m .sleep

/-- The triggers are read from registers that the taking of an event leaves. -/
theorem SupervisorLine.of_takeEvent {s : State} {r : Bool} {m m' : Mode} (h : SupervisorLine (takeEvent s) r m m') :
    SupervisorLine s r m m' := by
  rw [takeEvent_frame] at h
  cases h with
  | press h => exact .press h
  | earlyRelease h => exact .earlyRelease h
  | timeout h => exact .timeout h
  | shortPress ht hshort hup => exact .shortPress ht hshort hup
  | longPress ht hl => exact .longPress ht hl
  | hostReleased hr => exact .hostReleased hr

@[simp] theorem takeEvent_mode (s : State) : (takeEvent s).mode = s.mode := by
  rw [takeEvent_frame]
  rfl

/-! ### The supervisor's lines -/

theorem superviseOn_mode_cases {s : State} (r : Bool) (hlong : 1 ≤ s.params.longPressTicks) :
    (superviseOn (s.powerButton && !s.pwrPrev) s.powerButton s).mode = s.mode ∨
      ∃ m, (superviseOn (s.powerButton && !s.pwrPrev) s.powerButton s).mode = some m ∧ SupervisorLine s r .on m := by
  by_cases hedge : PressEdge s
  · obtain ⟨hpressed : s.powerButton = true, -⟩ := id hedge
    rw [pressEdge_iff.mp hedge, hpressed, superviseOn_of_press hlong]
    exact .inl rfl
  · rw [press_eq_false hedge]
    obtain ht | ht := Bool.eq_false_or_eq_true s.pwrTrack
    · by_cases hl : s.params.longPressTicks ≤ s.holdCnt.toNat
      · rw [superviseOn_of_long ht hl]
        exact .inr ⟨_, enterSleep_mode s, .longPress ht hl⟩
      · have hshort := Nat.lt_of_not_ge hl
        obtain hp | hp := Bool.eq_false_or_eq_true s.powerButton
        · rw [hp, superviseOn_of_held hshort]
          exact .inl rfl
        · rw [hp, superviseOn_of_short ht hshort]
          exact .inr ⟨_, enterPowerDown_mode s, .shortPress ht hshort hp⟩
    · rw [superviseOn_of_untracked ht]
      exact .inl rfl

theorem superviseWaking_mode_cases {s : State} (r : Bool) (hm : s.mode = some .wakeUp) :
    (superviseWaking s.powerButton s).mode = s.mode ∨
      ∃ m, (superviseWaking s.powerButton s).mode = some m ∧ SupervisorLine s r .wakeUp m := by
  by_cases hearly : EarlyRelease s
  · rw [superviseWaking_of_earlyRelease hearly]
    exact .inr ⟨_, enterSleep_mode s, .earlyRelease hearly⟩
  · rw [superviseWaking_of_not_earlyRelease (.inl hm) hearly]
    split
    · next htimeout => exact .inr ⟨_, enterSleep_mode _, .timeout htimeout⟩
    · rw [confirmPress_frame]
      exact .inl rfl

/-- Within the invariants the supervisor's step leaves the mode or takes one of its lines. -/
theorem superviseMode_mode_cases {s : State} (hs : Invariants s) (r : Bool) :
    (superviseMode (s.powerButton && !s.pwrPrev) s.powerButton r s).mode = s.mode ∨
      ∃ m m', s.mode = some m ∧ (superviseMode (s.powerButton && !s.pwrPrev) s.powerButton r s).mode = some m' ∧
        SupervisorLine s r m m' := by
  obtain hm | hm | hm | hm := hs.mode_legal
  · rw [superviseMode_of_sleep hm]
    by_cases hedge : PressEdge s
    · rw [pressEdge_iff.mp hedge, superviseSleep_true]
      exact .inr ⟨_, _, hm, enterWakeUp_mode s, .press hedge⟩
    · rw [press_eq_false hedge]
      exact .inl rfl
  · rw [superviseMode_of_waking (.inl hm)]
    exact (superviseWaking_mode_cases r hm).imp_right fun ⟨m, hto, hline⟩ => ⟨_, m, hm, hto, hline⟩
  · obtain ⟨-, -, -, -, -, -, -, -, ⟨hlong, -⟩, -⟩ := hs.params_wf
    rw [superviseMode_of_on hm]
    exact (superviseOn_mode_cases r hlong).imp_right fun ⟨m, hto, hline⟩ => ⟨_, m, hm, hto, hline⟩
  · rw [superviseMode_of_powerDown hm]
    cases r with
    | true => exact .inr ⟨_, _, hm, enterSleep_mode s, .hostReleased rfl⟩
    | false => exact .inl rfl

/-! ### The messages' lines -/

/-- A result known to be one state has that state's mode. -/
theorem mode_of_next {t u : State} {m : Option Mode} (h : (.next u : Result) = .next t) (hu : u.mode = m) :
    t.mode = m := by
  cases h
  exact hu

@[simp] theorem setFlag_mode (f : Flag) (b : Bool) (s : State) : (setFlag f b s).1.mode = s.mode :=
  congrArg Mode.ofCode (setFlag_modeField f b s)

/-- A contact leaves the mode or, within the invariants, takes the line from `WakeUp` to `On` (R252). -/
theorem contact_mode_cases {s : State} (hs : Invariants s) :
    (contact s).mode = s.mode ∨ (s.mode = some .wakeUp ∧ (contact s).mode = some .on) := by
  unfold contact
  split
  · next hw => exact .inr ⟨hs.wakeUp_of_isWaking hw, enterOn_mode s⟩
  · exact .inl rfl

/-- A message whose own effect leaves the mode takes the line of the contact at most (R172). -/
theorem serve_mode_cases {i : Instr} {effect : State → State} {s t : State} (hs : Invariants s)
    (h : serve effect s = .next t) (he : ∀ u, (effect u).mode = u.mode) (hline : CommandLine i .wakeUp .on) :
    t.mode = s.mode ∨ ∃ m m', s.mode = some m ∧ t.mode = some m' ∧ CommandLine i m m' := by
  have ht : t.mode = (contact s).mode := mode_of_next h (he (contact s))
  rw [ht]
  exact (contact_mode_cases hs).imp_right fun ⟨hfrom, hto⟩ => ⟨_, _, hfrom, hto, hline⟩

theorem exec_powerDown_mode_cases {s t : State} (hs : Invariants s) (h : exec .powerDown s = .next t) :
    t.mode = s.mode ∨ ∃ m m', s.mode = some m ∧ t.mode = some m' ∧ CommandLine .powerDown m m' := by
  by_cases hw : s.mode = some .wakeUp ∨ s.mode = some .powerUp
  · rw [exec_powerDown_of_waking hw] at h
    exact .inr ⟨_, _, hs.wakeUp_of_isWaking (State.isWaking_iff.mpr hw), mode_of_next h (enterPowerDown_mode _),
      .powerDownWaking rfl⟩
  · by_cases ho : s.mode = some .on
    · rw [exec_powerDown_of_on ho] at h
      exact .inr ⟨_, _, ho, mode_of_next h (enterPowerDown_mode s), .powerDownOn rfl⟩
    · rw [exec_powerDown_of_other hw ho] at h
      exact .inl (mode_of_next h rfl)

/-- Within the invariants a message leaves the mode or takes one of its lines. -/
theorem exec_mode_cases {i : Instr} {bs : List Byte} {s t : State} (hi : encode i = .message bs) (hs : Invariants s)
    (h : exec i s = .next t) :
    t.mode = s.mode ∨ ∃ m m', s.mode = some m ∧ t.mode = some m' ∧ CommandLine i m m' := by
  cases i with
  | nop | hapticAck | hapticFail => exact .inl (mode_of_next h rfl)
  | reset =>
    have hlegal : ∃ m, s.mode = some m := by
      obtain hm | hm | hm | hm := hs.mode_legal
      all_goals exact ⟨_, hm⟩
    obtain ⟨m, hm⟩ := hlegal
    exact .inr ⟨m, .sleep, hm, mode_of_next h rfl, .reset rfl m⟩
  | recStart =>
    simp only [exec, execRecStart] at h
    exact serve_mode_cases hs h (setFlag_mode _ _) (.contact nofun nofun nofun nofun nofun)
  | recStop =>
    simp only [exec, execRecStop] at h
    exact serve_mode_cases hs h (setFlag_mode _ _) (.contact nofun nofun nofun nofun nofun)
  | setBrightness v =>
    simp only [exec, execSetBrightness] at h
    exact serve_mode_cases hs h (fun _ => rfl) (.contact nofun nofun nofun nofun nofun)
  | info | setClock | setAlarm | haptic =>
    exact serve_mode_cases hs h (fun _ => rfl) (.contact nofun nofun nofun nofun nofun)
  | powerDown => exact exec_powerDown_mode_cases hs h
  | dts | drx | sor | sow | eot | other => cases hi

/-! ### No other step writes the mode -/

theorem commandService_mode_cases {s t : State} (hs : Invariants s) (h : commandService s = .next t) :
    t.mode = s.mode ∨ ∃ i m m', (s.cmdPending = true ∧ fetchCommand s = .ok (.ok i)) ∧ s.mode = some m ∧
      t.mode = some m' ∧ CommandLine i m m' := by
  obtain ⟨-, rfl⟩ | ⟨-, e, -, rfl⟩ | ⟨hp, i, hi, h⟩ := commandService_cases h
  · exact .inl rfl
  · rw [raise_frame]
    exact .inl rfl
  · obtain ⟨bs, hbs⟩ := fetchCommand_is_message hi
    exact (exec_mode_cases hbs hs h).imp_right fun ⟨m, m', hline⟩ => ⟨i, m, m', ⟨hp, hi⟩, hline⟩

theorem mainStep_mode_cases {b : Byte} {a : Half} {r : Bool} {s t : State} (hs : Invariants s)
    (h : mainStep b a r s = .next t) :
    t.mode = s.mode ∨
    (s.mlPhase = .supervisor ∧ ∃ m m', s.mode = some m ∧ t.mode = some m' ∧ SupervisorLine s r m m') ∨
    (s.mlPhase = .command ∧ ∃ i m m', (s.cmdPending = true ∧ fetchCommand s = .ok (.ok i)) ∧ s.mode = some m ∧
      t.mode = some m' ∧ CommandLine i m m') := by
  cases hphase : s.mlPhase with
  | buttons =>
    simp only [mainStep, hphase, buttonSample_frame] at h
    exact .inl (mode_of_next h rfl)
  | analog =>
    simp only [mainStep, hphase] at h
    rw [analogSample_frame] at h
    exact .inl (mode_of_next h rfl)
  | supervisor =>
    obtain ⟨hstep, -⟩ := mainStep_supervisor (b := b) (a := a) (r := r) hphase rfl
    have ht := mode_of_next (hstep.symm.trans h) rfl
    rw [ht]
    exact (superviseMode_mode_cases hs r).imp_right fun hline => .inl ⟨rfl, hline⟩
  | command =>
    simp only [mainStep, hphase] at h
    exact (commandService_mode_cases hs h).imp_right fun hline => .inr ⟨rfl, hline⟩

/-- Within the invariants a step of any agent leaves the mode, or is the supervisor's, the command service's, or a
reset. -/
theorem runEvent_mode_cases {e : Event} {s t : State} (hs : Invariants s) (h : runEvent e s = .next t) :
    t.mode = s.mode ∨
    (∃ b a r, e = .main b a r ∧ s.mlPhase = .supervisor ∧
      ∃ m m', s.mode = some m ∧ t.mode = some m' ∧ SupervisorLine s r m m') ∨
    ((∃ b a r, e = .main b a r) ∧ s.mlPhase = .command ∧
      ∃ i m m', (s.cmdPending = true ∧ fetchCommand s = .ok (.ok i)) ∧ s.mode = some m ∧ t.mode = some m' ∧
        CommandLine i m m') ∨
    (e = .reset ∧ t.mode = some .sleep) := by
  cases e with
  | bus c rx =>
    rw [(strobe_busStep h).frame]
    exact .inl rfl
  | main b a r =>
    obtain hsame | hline | hline := mainStep_mode_cases hs h
    · exact .inl hsame
    · exact .inr (.inl ⟨b, a, r, rfl, hline⟩)
    · exact .inr (.inr (.inl ⟨⟨b, a, r, rfl⟩, hline⟩))
  | reset => exact .inr (.inr (.inr ⟨rfl, mode_of_next h rfl⟩))
  | tick =>
    rw [runEvent, tick_frame] at h
    exact .inl (mode_of_next h rfl)
  | wake => exact .inl (mode_of_next h rfl)
  | setFlag f b => exact .inl (mode_of_next h (setFlag_mode _ b s))
  | clockAdvance v => exact .inl (mode_of_next h rfl)
  | hapticDone ok =>
    simp only [runEvent, envHapticDone] at h
    refine .inl (mode_of_next h ?_)
    split
    · rfl
    · rfl

end Sys2Proof.Machine

namespace Sys2Proof.Proofs

open Sys2Proof.Machine Sys2Proof.Views

/-- Settles O36: a release below the threshold is `EnterSleep`; otherwise the confirmation, which touches the haptic
port and `confirmed` alone, comes before the timeout (R247 to R250). -/
theorem wakeUpConfirmsFallsBackOrTimesOut : Obligations.WakeUpConfirmsFallsBackOrTimesOut := by
  intro s b a r hphase hm
  have hsleep : ∀ u : State, u.status = s.status → SleepEntered s (enterSleep u) := fun u hu =>
    hm.elim (fun h => sleepEntered_enterSleep h (by decide) hu) (fun h => sleepEntered_enterSleep h (by decide) hu)
  obtain ⟨hstep, hframe⟩ := mainStep_supervisor (b := b) (a := a) hphase (superviseMode_of_waking hm _ _ r)
  refine ⟨_, hstep, hframe, ?_⟩
  by_cases hearly : EarlyRelease s
  · rw [if_pos hearly, superviseWaking_of_earlyRelease hearly]
    exact ⟨hsleep s rfl, enterSleep_quietHaptic s⟩
  · have hhaptic := confirmPress_haptic s
    rw [if_neg hearly, superviseWaking_of_not_earlyRelease hm hearly]
    by_cases htimeout : s.wakeTo = 0#16
    · obtain ⟨hout, hactive⟩ := enterSleep_quietHaptic (confirmPress s)
      rw [if_pos htimeout, if_pos htimeout]
      refine ⟨?_, hsleep _ (by rw [confirmPress_frame])⟩
      simpa only [QuietHaptic, hout, hactive] using hhaptic
    · have hconf := confirmPress_confirmed (s := s)
      rw [if_neg htimeout, if_neg htimeout]
      refine ⟨hhaptic, ?_⟩
      rw [confirmPress_frame] at hconf ⊢
      exact ⟨rfl, rfl, rfl, rfl, rfl, rfl, rfl, rfl, rfl, hconf⟩

/-- Settles O37: the press edge only starts the tracking; without one the tracked press is compared with the threshold
first and its release looked at second (R253, R254). -/
theorem onPressesRequestOrForcePowerOff : Obligations.OnPressesRequestOrForcePowerOff := by
  intro s b a r hphase hm hlong
  obtain ⟨hstep, hframe⟩ := mainStep_supervisor (b := b) (a := a) hphase (superviseMode_of_on hm _ _ r)
  refine ⟨_, hstep, hframe, superviseOn_quietHaptic _ _ s, fun hedge => ?press, fun hno ht hl => ?long,
    fun hno ht hshort hup => ?short, fun hno hrest => ?rest⟩
  case press =>
    obtain ⟨hpressed : s.powerButton = true, -⟩ := id hedge
    rw [pressEdge_iff.mp hedge, hpressed, superviseOn_of_press hlong]
  case long =>
    rw [press_eq_false hno, superviseOn_of_long ht hl]
    exact sleepEntered_enterSleep hm (by decide) rfl
  case short =>
    have hup : s.powerButton = false := hup
    rw [press_eq_false hno, hup, superviseOn_of_short ht hshort]
    obtain ⟨hmode, hirq, htrack, hhold, hconf, hwake⟩ := enterPowerDown_of_ne hm (by decide)
    obtain ⟨hrail, hsampling, hdue, hdiv⟩ := enterPowerDown_supply s
    exact ⟨hmode, fun f => setMode_flagOf f .powerDown s, hirq, hrail, hsampling, htrack, hhold, hconf, hwake, hdue,
      hdiv⟩
  case rest =>
    have hsame : superviseOn false s.powerButton s = s := by
      obtain ht | ⟨hshort, hheld⟩ := hrest
      · exact superviseOn_of_untracked ht _
      · have hheld : s.powerButton = true := hheld
        rw [hheld, superviseOn_of_held hshort]
    rw [press_eq_false hno, hsame]
    rfl

/-- Settles O39: a step that writes the mode is the supervisor's, the command service's or a reset; each line of the
first two is a line of the table (R242). -/
theorem modeChangesOnlyByTheTable : Obligations.ModeChangesOnlyByTheTable := by
  intro s t hs h hne
  have hcases := runEvent_mode_cases (takeEvent_invariants hs) h
  rw [takeEvent_mode, takeEvent_mlPhase, takeEvent_cmdPending, takeEvent_fetchCommand] at hcases
  obtain hsame | ⟨b, a, r, hmain, hphase, m, m', hm, ht, hline⟩ |
    ⟨hmain, hphase, i, m, m', hserved, hm, ht, hline⟩ | ⟨hreset, ht⟩ := hcases
  · exact absurd hsame hne
  · have hin : InPhase s .supervisor := ⟨⟨b, a, r, hmain⟩, hphase⟩
    cases hline.of_takeEvent with
    | press hedge => exact .inl ⟨hm, ht, hin, hedge⟩
    | earlyRelease hearly => exact .inr (.inl ⟨hm, ht, hin, .inl hearly⟩)
    | timeout hzero => exact .inr (.inl ⟨hm, ht, hin, .inr hzero⟩)
    | shortPress htrack hshort hup =>
      exact .inr (.inr (.inr (.inr (.inl ⟨hm, ht, .inr ⟨hin, htrack, hshort, hup⟩⟩))))
    | longPress htrack hl => exact .inr (.inr (.inr (.inr (.inr (.inl ⟨hm, ht, hin, htrack, hl⟩)))))
    | hostReleased hr =>
      exact .inr (.inr (.inr (.inr (.inr (.inr (.inl ⟨hm, ht, hphase, b, a, hr ▸ hmain⟩))))))
  · have hserves : Serves s i := ⟨⟨hmain, hphase⟩, hserved⟩
    cases hline with
    | contact hnop hack hfail hreset hdown =>
      exact .inr (.inr (.inl ⟨hm, ht, i, hserves, hnop, hack, hfail, hreset, hdown⟩))
    | powerDownWaking hi => exact .inr (.inr (.inr (.inl ⟨hm, ht, hi ▸ hserves⟩)))
    | powerDownOn hi => exact .inr (.inr (.inr (.inr (.inl ⟨hm, ht, .inl (hi ▸ hserves)⟩))))
    | reset hi => exact .inr (.inr (.inr (.inr (.inr (.inr (.inr ⟨ht, .inr (hi ▸ hserves)⟩))))))
  · exact .inr (.inr (.inr (.inr (.inr (.inr (.inr ⟨ht, .inl hreset⟩))))))

/-- Settles O35: with a press edge the step is `EnterWakeUp`, without one it applies no rule (R246). -/
theorem pressInSleepWakes : Obligations.PressInSleepWakes := by
  intro s b a r hphase hm
  obtain ⟨hstep, hframe⟩ := mainStep_supervisor (b := b) (a := a) hphase (superviseMode_of_sleep hm _ _ r)
  refine ⟨_, hstep, hframe, superviseSleep_quietHaptic _ s, fun hedge => ?wakes, fun hno => ?stays⟩
  case wakes =>
    rw [pressEdge_iff.mp hedge, superviseSleep_true]
    obtain ⟨hirq, -, -⟩ := setMode_of_ne hm (m' := .wakeUp) (by decide)
    exact ⟨enterWakeUp_mode s, fun f => setMode_flagOf f .wakeUp s, hirq, rfl, rfl, rfl, enterWakeUp_wakeTo s, rfl, rfl,
      rfl, enterWakeUp_sampleDue s⟩
  case stays =>
    rw [press_eq_false hno, superviseSleep_false]
    rfl

/-- Settles O38: the release signal alone decides (R256, R257). -/
theorem powerDownEndsOnlyByRelease : Obligations.PowerDownEndsOnlyByRelease := by
  intro s b a r hphase hm
  obtain ⟨hstep, hframe⟩ := mainStep_supervisor (b := b) (a := a) hphase (superviseMode_of_powerDown hm _ _ r)
  refine ⟨_, hstep, hframe, supervisePowerDown_quietHaptic r s, fun hr => ?released, fun hr => ?stays⟩
  case released =>
    rw [hr, supervisePowerDown_true]
    exact sleepEntered_enterSleep hm (by decide) rfl
  case stays =>
    rw [hr, supervisePowerDown_false]
    rfl

/-- Settles O43: the environment's setter is `SetFlag` on the flag it names (R27, R262). -/
theorem envFlagSetterArmsOnChange : Obligations.EnvFlagSetterArmsOnChange := by
  intro s f b
  refine ⟨(setFlag (flagOfEnv f) b s).1, rfl, ?frame, ?flag, fun g hg => ?others, setFlag_modeField _ b s,
    fun h => ?same, fun h => ?changed⟩
  case frame => rw [setFlag_frame]
  case flag => rw [setFlag_flagOf, if_pos rfl]
  case others => rw [setFlag_flagOf, if_neg hg]
  case same => rw [setFlag, if_pos h]
  case changed => exact (setFlag_irq_iff _ b s).mpr (.inr h)

/-- Settles O44: the clock is written as it is, the haptic report acts on an active pulse, the wake signal has no effect
(R263, R264, R322). -/
theorem environmentStepsWriteTheirRegisters : Obligations.EnvironmentStepsWriteTheirRegisters := by
  refine fun s => ⟨fun v hv => ?clock, fun ok => ?haptic, rfl⟩
  case clock => rw [runEvent, envClockAdvance, writeTime_of_length hv]
  case haptic =>
    rw [runEvent, envHapticDone]
    rfl

end Sys2Proof.Proofs
end

section
/-! PROOFS. The debounced buttons and the tick (`44_buttons.md`). The sampler's loop, read at button 0, gives one lemma
for each register `ButtonSample` writes (R281). The tick's frame is `tick_frame`; each of its counters has a lemma that
says what it counts (R285). -/

namespace Sys2Proof.Machine

/-! ### What `ButtonSample` does to each button (R281) -/

/-- Button `i` is unlocked and its raw level differs from the debounced one. -/
abbrev AcceptsChange (raw : Byte) (s : State) (i : Nat) : Prop :=
  s.btnTimer.getD i 0#8 = 0#8 ∧ raw.getLsbD i ≠ s.buttons.getLsbD i

/-- The loop takes the raw level of every unlocked button; it is a new level only where a change is accepted. -/
theorem buttonSample_level (raw : Byte) {s : State} (hn : s.btnTimer.length ≤ 8) {i : Nat}
    (hi : i < s.btnTimer.length) :
    (buttonSample raw s).buttons.getLsbD i =
      if AcceptsChange raw s i then raw.getLsbD i else s.buttons.getLsbD i := by
  have hloop := sampleFrom_buttons (BitVec.ofNat 8 s.params.debounceTicks) raw s.buttons
    ((Nat.zero_add _).trans_le hn) hi
  rw [Nat.zero_add] at hloop
  rw [buttonSample_frame, hloop]
  by_cases hsame : raw.getLsbD i = s.buttons.getLsbD i
  · simp only [hsame, ite_self]
  · simp only [AcceptsChange, ne_eq, hsame, not_false_eq_true, and_true]

theorem buttonSample_level_high (raw : Byte) {s : State} (hn : s.btnTimer.length ≤ 8) {i : Nat}
    (hi : s.btnTimer.length ≤ i) : (buttonSample raw s).buttons.getLsbD i = s.buttons.getLsbD i := by
  rw [buttonSample_frame]
  exact sampleFrom_outside _ raw _ (by omega) (.inr (by omega))

/-- An accepted change locks its button; the timer of every other button is kept. -/
theorem buttonSample_timer (raw : Byte) {s : State} (hn : s.btnTimer.length ≤ 8) {i : Nat}
    (hi : i < s.btnTimer.length) :
    (buttonSample raw s).btnTimer.getD i 0#8 =
      if AcceptsChange raw s i then BitVec.ofNat 8 s.params.debounceTicks else s.btnTimer.getD i 0#8 := by
  have hloop := sampleFrom_timers (BitVec.ofNat 8 s.params.debounceTicks) raw s.buttons
    ((Nat.zero_add _).trans_le hn) hi
  rw [Nat.zero_add] at hloop
  rw [buttonSample_frame, hloop]

@[simp] theorem buttonSample_timer_length (raw : Byte) (s : State) :
    (buttonSample raw s).btnTimer.length = s.btnTimer.length := by
  rw [buttonSample_frame]
  exact sampleFrom_length ..

/-- The line is armed exactly when some button's change is accepted. -/
theorem buttonSample_irq_iff (raw : Byte) {s : State} (hn : s.btnTimer.length ≤ 8) :
    (buttonSample raw s).irq = true ↔ s.irq = true ∨ ∃ i, i < s.btnTimer.length ∧ AcceptsChange raw s i := by
  have hloop := sampleFrom_any (BitVec.ofNat 8 s.params.debounceTicks) raw s.buttons ((Nat.zero_add _).trans_le hn)
  simp only [Nat.zero_add] at hloop
  rw [buttonSample_frame, Bool.or_eq_true, hloop, or_comm]

/-- A step in phase `Buttons` is the sampler, then phase `Analog`; it writes nothing else (R240, R281). -/
theorem mainStep_buttons {s : State} (b : Byte) (a : Half) (r : Bool) (hphase : s.mlPhase = .buttons) :
    mainStep b a r s = .next { buttonSample b s with mlPhase := .analog } ∧
      ({ buttonSample b s with mlPhase := .analog } : State) =
        { s with
          buttons := (buttonSample b s).buttons, btnTimer := (buttonSample b s).btnTimer
          irq := (buttonSample b s).irq, mlPhase := .analog } := by
  have hkept : (buttonSample b s).mlPhase = .buttons := by rw [buttonSample_frame, hphase]
  refine ⟨?_, by simp only [buttonSample_frame]⟩
  simp only [mainStep, hphase, advancePhase, hkept, Phase.next]

/-! ### What the tick counts (R285) -/

theorem tick_btnTimer (s : State) : (tick s).btnTimer.map BitVec.toNat = s.btnTimer.map (fun c => c.toNat - 1) := by
  rw [tick_frame, List.map_map]
  exact List.map_congr_left fun c _ => dec0_toNat c

theorem tick_holdCnt (s : State) :
    (tick s).holdCnt.toNat =
      if s.pwrTrack = true ∧ s.powerButton = true then min (s.holdCnt.toNat + 1) 65535 else s.holdCnt.toNat := by
  rw [tick_frame]
  simp only [Bool.and_eq_true, apply_ite BitVec.toNat, satInc_toNat]
  rfl

theorem tick_wakeTo (s : State) :
    (tick s).wakeTo.toNat =
      if s.mode = some .wakeUp ∨ s.mode = some .powerUp then s.wakeTo.toNat - 1 else s.wakeTo.toNat := by
  rw [tick_frame]
  simp only [State.isWaking_iff, apply_ite BitVec.toNat, dec0_toNat]

/-- At 0 the divider starts a new period and a conversion is due. -/
theorem tick_mux_of_zero {s : State} (hen : s.samplingEn = true) (h0 : s.muxDiv = 0#16) :
    (tick s).sampleDue = true ∧ (tick s).muxDiv = BitVec.ofNat 16 (s.params.analogPeriodTicks - 1) := by
  rw [tick_frame]
  simp [hen, h0]

/-- Above 0 the divider counts down; what was due stays due. -/
theorem tick_mux_of_ne_zero {s : State} (hen : s.samplingEn = true) (h0 : s.muxDiv ≠ 0#16) :
    (tick s).sampleDue = s.sampleDue ∧ (tick s).muxDiv.toNat = s.muxDiv.toNat - 1 := by
  have hdec : s.muxDiv - 1 = dec0 s.muxDiv := (if_neg h0).symm
  rw [tick_frame, ← dec0_toNat, ← hdec]
  simp [hen, h0]

theorem tick_mux_of_disabled {s : State} (hen : s.samplingEn = false) :
    (tick s).sampleDue = s.sampleDue ∧ (tick s).muxDiv = s.muxDiv := by
  rw [tick_frame]
  simp [hen]

end Sys2Proof.Machine

namespace Sys2Proof.Proofs

open Sys2Proof.Machine

/-- Settles O40: the step is the sampler (R240), and each register is read off its loop (R281). -/
theorem buttonSampleAcceptsUnlocked : Obligations.ButtonSampleAcceptsUnlocked := by
  intro s b a r hphase hlen hn
  rw [← hlen] at hn ⊢
  obtain ⟨hstep, hframe⟩ := mainStep_buttons b a r hphase
  refine ⟨_, hstep, hframe, buttonSample_timer_length b s, fun i hi => ?button,
    fun i hi => buttonSample_level_high b hn hi, buttonSample_irq_iff b hn⟩
  have hlevel := buttonSample_level b hn hi
  have htimer := buttonSample_timer b hn hi
  split
  · next hacc => exact ⟨hlevel.trans (if_pos hacc), htimer.trans (if_pos hacc)⟩
  · next hrej => exact ⟨hlevel.trans (if_neg hrej), htimer.trans (if_neg hrej)⟩

/-- Settles O41: the frame of `Tick`, and one lemma per counter (R285). -/
theorem tickOnlyCounts : Obligations.TickOnlyCounts := by
  intro s
  refine ⟨tick s, rfl, by rw [tick_frame], tick_btnTimer s, tick_holdCnt s, tick_wakeTo s, ?mux⟩
  split
  · next hen => exact ⟨tick_mux_of_zero hen, tick_mux_of_ne_zero hen⟩
  · next hdis => exact tick_mux_of_disabled (Bool.eq_false_iff.mpr hdis)

end Sys2Proof.Proofs
end

section
/-! PROOFS. The analog multiplexer (`45_analog.md`). `AnalogSample` writes the selected channel's byte with the channel's
code; an equal value changes nothing, so the line is armed exactly where the record differs (R296, R297). -/

namespace Sys2Proof.Machine

/-! ### The channels: their order, their bytes in the record, their codes (R40, R110, R296) -/

/-- The successor counts the 2-bit code up, around from the last channel to the first (R297). -/
@[simp] theorem Channel.code_next (c : Channel) : Channel.code (Channel.next c) = Channel.code c + 1 := by
  cases c <;> rfl

/-- The joystick code is the low byte of the conversion (R296). -/
theorem encJ_eq_ofNat (a : Half) : encJ a = BitVec.ofNat 8 a.toNat := rfl

/-- The channels' bytes stand in the record from index 2 on, in the order of their codes (R110). -/
theorem recordByte_channel (c : Channel) (s : State) :
    s.recordByte (2 + (Channel.code c).toNat) = channelByte c s := by
  cases c <;> rfl

@[simp] theorem channelByte_setChannelByte (c : Channel) (b : Byte) (s : State) :
    channelByte c (setChannelByte c b s) = b := by
  cases c <;> rfl

@[simp] theorem setChannelByte_channelByte (c : Channel) (s : State) : setChannelByte c (channelByte c s) s = s := by
  cases c <;> rfl

@[simp] theorem setChannelByte_params (c : Channel) (b : Byte) (s : State) :
    (setChannelByte c b s).params = s.params := by
  cases c <;> rfl

/-- The record differs after the write exactly when the channel's byte does. -/
theorem setChannelByte_record_ne_iff (c : Channel) (b : Byte) (s : State) :
    (setChannelByte c b s).record ≠ s.record ↔ channelByte c s ≠ b := by
  refine not_congr ⟨fun hrec => ?_, fun hbyte => by rw [← hbyte, setChannelByte_channelByte]⟩
  have hindex : 2 + (Channel.code c).toNat ∈ List.range s.params.srBytes := by
    have hcode := (Channel.code c).isLt
    simp only [List.mem_range, Params.srBytes]
    omega
  rw [State.record, setChannelByte_params, State.record, List.map_inj_left] at hrec
  have hbytes := hrec _ hindex
  rw [recordByte_channel, recordByte_channel, channelByte_setChannelByte] at hbytes
  exact hbytes.symm

/-- A channel's code goes into its own byte and into no other (R296). -/
theorem setChannelByte_encodeSample (c : Channel) (a : Half) (s : State) :
    setChannelByte c (encodeSample s.params c a) s =
      { s with
        joyX := if c = .joyX then BitVec.ofNat 8 a.toNat else s.joyX
        joyY := if c = .joyY then BitVec.ofNat 8 a.toNat else s.joyY
        vbatt := if c = .vbatt then encV s.params a.toNat else s.vbatt
        temp := if c = .temp then encT a.toInt else s.temp } := by
  rw [← encJ_eq_ofNat]
  cases c <;> rfl

/-! ### `AnalogSample` (R297) -/

/-- The write happens whether or not it changes the byte; only the line depends on that. -/
theorem storeSample_eq (c : Channel) (b : Byte) (s : State) :
    storeSample c b s = { setChannelByte c b s with irq := s.irq || channelByte c s != b } := by
  unfold storeSample
  split
  · next hsame => simp [← hsame]
  · next hdiff => simp [arm, bne_iff_ne.mpr hdiff]

theorem analogSample_of_due (a : Half) {s : State} (hdue : s.samplingEn = true ∧ s.sampleDue = true) :
    analogSample a s =
      { setChannelByte s.muxSel (encodeSample s.params s.muxSel a) s with
        irq := s.irq || channelByte s.muxSel s != encodeSample s.params s.muxSel a
        muxSel := Channel.next s.muxSel, sampleDue := false } := by
  rw [analogSample, if_pos (Bool.and_eq_true_iff.mpr hdue), storeSample_eq]

theorem analogSample_of_not_due (a : Half) {s : State} (hdue : ¬ (s.samplingEn = true ∧ s.sampleDue = true)) :
    analogSample a s = s := by
  rw [analogSample, if_neg (mt Bool.and_eq_true_iff.mp hdue)]

/-- The line after a conversion is taken: asserted before, or the record changed. -/
theorem analogSample_irq_iff (a : Half) {s : State} (hdue : s.samplingEn = true ∧ s.sampleDue = true) :
    (analogSample a s).irq = true ↔ s.irq = true ∨ (analogSample a s).record ≠ s.record := by
  have hrecord := setChannelByte_record_ne_iff s.muxSel (encodeSample s.params s.muxSel a) s
  rw [analogSample_of_due a hdue, Bool.or_eq_true, bne_iff_ne]
  exact or_congr_right hrecord.symm

/-- A step in phase `Analog` is the analog sample, then phase `Supervisor` (R240). -/
theorem mainStep_analog {s : State} (b : Byte) (a : Half) (r : Bool) (hphase : s.mlPhase = .analog) :
    mainStep b a r s = .next { analogSample a s with mlPhase := .supervisor } := by
  have hkept : (analogSample a s).mlPhase = .analog := by rw [analogSample_frame, hphase]
  simp only [mainStep, hphase, advancePhase, hkept, Phase.next]

/-- The voltage code as a maximum and a minimum (R150). -/
theorem encV_eq_max_min (p : Params) (v : Int) : ((encV p v).toNat : Int) = max 0 (min 255 (v - p.vOff)) := by
  rw [encV_toNat, clamp_eq_max_min _ (by omega)]

/-- The temperature code as a maximum and a minimum (R154). -/
theorem encT_eq_max_min (h : Int) : ((encT h).toNat : Int) = max 0 (min 255 (h + 40)) := by
  rw [encT_toNat, clamp_eq_max_min _ (by omega)]

end Sys2Proof.Machine

namespace Sys2Proof.Proofs

open Sys2Proof.Machine

/-- Settles O42: the conversion's code goes into the selected channel's byte, the line follows the record; with nothing
due or the sampling off, `AnalogSample` is the identity (R297). -/
theorem analogSampleEncodesChannel : Obligations.AnalogSampleEncodesChannel := by
  intro s b a r hphase
  refine ⟨_, mainStep_analog b a r hphase, ?_⟩
  split
  case isFalse hdue => rw [analogSample_of_not_due a hdue]
  case isTrue hdue =>
    have hirq := analogSample_irq_iff a hdue
    have hsample := analogSample_of_due a hdue
    rw [setChannelByte_encodeSample] at hsample
    refine ⟨by rw [hsample], ?voltage, ?temperature, hirq, by rw [hsample, Channel.code_next]⟩
    case voltage =>
      rw [hsample]
      split
      · exact encV_eq_max_min s.params a.toNat
      · rfl
    case temperature =>
      rw [hsample]
      split
      · exact encT_eq_max_min a.toInt
      · rfl

end Sys2Proof.Proofs
end

section
/-! PROOFS. The signal line and the errors (`60_exceptions.md`). The line follows the record: every operation but the
reset either keeps the six observable bytes or leaves the line asserted (`LineFollows`, R327). Two operations in a row do
so when the second keeps the line that the first has armed. -/

namespace Sys2Proof.Machine

/-! ### The observable bytes and the line (R325, R327) -/

/-- The status byte, the buttons byte and the four analog bytes: the record bytes whose change arms the line (R327). -/
def State.observable (s : State) : List Byte := [s.status, s.buttons, s.joyX, s.joyY, s.vbatt, s.temp]

/-- The six are the first bytes of the record (R110). -/
theorem State.observable_eq_map (s : State) : s.observable = (List.range 6).map s.recordByte := rfl

/-- Equal observable bytes are equal record bytes 0 to 5. -/
theorem State.observable_eq_iff {s t : State} :
    t.observable = s.observable ↔ ∀ k, k < 6 → t.recordByte k = s.recordByte k := by
  simp only [State.observable_eq_map, List.map_inj_left, List.mem_range]

/-- From `s` to `t` the observable bytes are kept, or the line is asserted afterwards. -/
def LineFollows (s t : State) : Prop := t.observable = s.observable ∨ t.irq = true

/-- Two operations in a row: the second must not take back what the first has armed. -/
theorem LineFollows.trans {s u t : State} (hu : LineFollows s u) (ht : LineFollows u t)
    (hkeeps : u.irq = true → t.irq = true) : LineFollows s t := by
  obtain hkept | harmed := hu
  · exact ht.imp_left fun h => h.trans hkept
  · exact .inr (hkeeps harmed)

/-- A result known to be one state follows as that state does. -/
theorem lineFollows_of_next {s t u : State} (h : (.next u : Result) = .next t) (hu : LineFollows s u) :
    LineFollows s t := by
  cases h
  exact hu

/-! ### The setters and the contact (R27, R243, R252) -/

theorem setFlag_lineFollows (f : Flag) (b : Bool) (s : State) : LineFollows s (setFlag f b s).1 := by
  unfold setFlag
  split
  · exact .inl rfl
  · exact .inr rfl

/-- Each mode entry writes the status byte through `SetMode` alone, and follows as it does. -/
theorem setMode_lineFollows (m : Mode) (s : State) : LineFollows s (setMode m s).1 := by
  unfold setMode
  split
  · exact .inl rfl
  · exact .inr rfl

theorem contact_lineFollows (s : State) : LineFollows s (contact s) := by
  unfold contact
  split
  · exact setMode_lineFollows .on s
  · exact .inl rfl

/-! ### The sampler and the multiplexer (R281, R297) -/

/-- Where the sampler accepts no change, it leaves the buttons byte. -/
theorem sampleFrom_buttons_of_quiet {reload raw : Byte} {i : Nat} {ts : List Byte} {btns : Byte}
    (h : (sampleFrom reload raw i ts btns).any = false) : (sampleFrom reload raw i ts btns).buttons = btns := by
  induction ts generalizing i btns with
  | nil => rfl
  | cons t ts ih =>
    simp only [sampleFrom, Bool.or_eq_false_iff] at h ⊢
    obtain ⟨haccept, hrest⟩ := h
    simp only [haccept, Bool.false_eq_true, if_false] at hrest ⊢
    exact ih hrest

theorem buttonSample_lineFollows (raw : Byte) (s : State) : LineFollows s (buttonSample raw s) := by
  rw [buttonSample_frame]
  cases hany : (sampleFrom (BitVec.ofNat 8 s.params.debounceTicks) raw 0 s.btnTimer s.buttons).any with
  | true => exact .inr rfl
  | false =>
    rw [sampleFrom_buttons_of_quiet hany]
    exact .inl rfl

theorem storeSample_lineFollows (c : Channel) (b : Byte) (s : State) : LineFollows s (storeSample c b s) := by
  unfold storeSample
  split
  · exact .inl rfl
  · exact .inr rfl

theorem analogSample_lineFollows (a : Half) (s : State) : LineFollows s (analogSample a s) := by
  unfold analogSample
  split
  · exact storeSample_lineFollows s.muxSel _ s
  · exact .inl rfl

/-! ### The supervisor (R245 to R257) -/

theorem superviseUnconfirmed_lineFollows (p : Bool) (s : State) : LineFollows s (superviseUnconfirmed p s) := by
  unfold superviseUnconfirmed
  split
  · rw [wakeHaptic_frame]
    exact .inl rfl
  · split
    · exact .inl rfl
    · exact setMode_lineFollows .sleep s

/-- The timeout of a wake (R249). -/
theorem wakeTimeout_lineFollows (u : State) :
    LineFollows u (if u.isWaking && u.wakeTo == 0#16 then enterSleep u else u) := by
  split
  · exact setMode_lineFollows .sleep u
  · exact .inl rfl

/-- The confirmation may go back to `Sleep` first; the timeout after it keeps the line (R249, R250). -/
theorem superviseWaking_lineFollows (p : Bool) (s : State) : LineFollows s (superviseWaking p s) := by
  have hconfirm : LineFollows s (if s.confirmed then s else superviseUnconfirmed p s) := by
    split
    · exact .inl rfl
    · exact superviseUnconfirmed_lineFollows p s
  exact hconfirm.trans (wakeTimeout_lineFollows _) wakeTimeout_keeps_irq

/-- The end of a tracked press in `On` (R253, R254). -/
theorem pressEnd_lineFollows (p : Bool) (u : State) :
    LineFollows u
      (if u.pwrTrack then
        if u.params.longPressTicks ≤ u.holdCnt.toNat then enterSleep u else if p then u else enterPowerDown u
        else u) := by
  split
  · split
    · exact setMode_lineFollows .sleep u
    · split
      · exact .inl rfl
      · exact setMode_lineFollows .powerDown u
  · exact .inl rfl

/-- The start of the tracking writes no observable byte; the end of the press may enter another mode (R253, R254). -/
theorem superviseOn_lineFollows (press p : Bool) (s : State) : LineFollows s (superviseOn press p s) := by
  have htrack : LineFollows s (if press then { s with pwrTrack := true, holdCnt := 0 } else s) := by
    split
    · exact .inl rfl
    · exact .inl rfl
  exact htrack.trans (pressEnd_lineFollows p _) (pressEnd_keeps_irq p)

theorem superviseMode_lineFollows (press p rel : Bool) (s : State) : LineFollows s (superviseMode press p rel s) := by
  unfold superviseMode
  split
  · unfold superviseSleep
    split
    · exact setMode_lineFollows .wakeUp s
    · exact .inl rfl
  · exact superviseWaking_lineFollows p s
  · exact superviseWaking_lineFollows p s
  · exact superviseOn_lineFollows press p s
  · unfold supervisePowerDown
    split
    · exact setMode_lineFollows .sleep s
    · exact .inl rfl
  · exact .inl rfl

theorem supervise_lineFollows (rel : Bool) (s : State) : LineFollows s (supervise rel s) :=
  superviseMode_lineFollows _ _ rel s

/-! ### The steps of the agents (R15) -/

/-- A bus condition writes no observable byte (R340), so it follows even where it clears the line. -/
theorem BusStep.lineFollows {s t : State} (h : BusStep s t) : LineFollows s t := by
  rw [h.frame]
  exact .inl rfl

/-- The end of a service writes neither an observable byte nor the line (R170). -/
theorem LineFollows.finishCommand {s u : State} (h : LineFollows s u) : LineFollows s (finishCommand u) := h

/-- A served message whose own effect writes neither an observable byte nor the line follows as the contact does
(R172). -/
theorem serve_quiet_lineFollows {effect : State → State} {s t : State} (h : serve effect s = .next t)
    (hbytes : ∀ u, (effect u).observable = u.observable) (hline : ∀ u, (effect u).irq = u.irq) : LineFollows s t :=
  lineFollows_of_next h
    ((contact_lineFollows s).trans (.inl (hbytes _)) fun harmed => (hline _).trans harmed).finishCommand

/-- Every message but `RESET` follows: the contact does, and the message's own effect either writes no observable byte
or is one of the setters, which keep the line that the contact may have armed (R27, R172, R243). -/
theorem exec_message_lineFollows {i : Instr} {m : List Byte} {s t : State} (hm : encode i = .message m)
    (hreset : i ≠ .reset) (h : exec i s = .next t) : LineFollows s t := by
  have hcontact := contact_lineFollows s
  cases i with
  | nop => exact lineFollows_of_next h (.inl rfl)
  | reset => exact absurd rfl hreset
  | info => exact serve_quiet_lineFollows (effect := id) h (fun _ => rfl) fun _ => rfl
  | recStart =>
    rw [exec_recording (.inl ⟨rfl, rfl⟩)] at h
    exact lineFollows_of_next h
      (hcontact.trans (setFlag_lineFollows _ _ _) (setFlag_keeps_irq _ _)).finishCommand
  | recStop =>
    rw [exec_recording (.inr ⟨rfl, rfl⟩)] at h
    exact lineFollows_of_next h
      (hcontact.trans (setFlag_lineFollows _ _ _) (setFlag_keeps_irq _ _)).finishCommand
  | setBrightness v =>
    exact serve_quiet_lineFollows (effect := fun u => { u with brightness := v }) h (fun _ => rfl) fun _ => rfl
  | setClock dt => exact serve_quiet_lineFollows (effect := writeTime dt) h (fun _ => rfl) fun _ => rfl
  | setAlarm dt => exact serve_quiet_lineFollows (effect := writeAlarm dt) h (fun _ => rfl) fun _ => rfl
  | haptic i d => exact serve_quiet_lineFollows (effect := startHaptic i d) h (fun _ => rfl) fun _ => rfl
  | hapticAck =>
    rw [exec_hapticReply (.inl rfl)] at h
    exact lineFollows_of_next h (.inl rfl)
  | hapticFail =>
    rw [exec_hapticReply (.inr rfl)] at h
    exact lineFollows_of_next h (.inl rfl)
  | powerDown =>
    rw [exec, execPowerDown, serve] at h
    refine lineFollows_of_next h (LineFollows.finishCommand ?_)
    split
    · exact hcontact.trans (setMode_lineFollows .powerDown _) (setMode_keeps_irq .powerDown)
    · exact hcontact
  | _ => cases hm

theorem commandService_lineFollows {s t : State} (h : commandService s = .next t) :
    LineFollows s t ∨ (s.cmdPending = true ∧ fetchCommand s = .ok (.ok .reset)) := by
  obtain ⟨_, rfl⟩ | ⟨_, e, _, rfl⟩ | ⟨hp, i, hi, h⟩ := commandService_cases h
  · exact .inl (.inl rfl)
  · rw [raise_frame]
    exact .inl (.inl rfl)
  · by_cases hreset : i = .reset
    · exact .inr ⟨hp, hreset ▸ hi⟩
    · obtain ⟨m, hm⟩ := fetchCommand_is_message hi
      exact .inl (exec_message_lineFollows hm hreset h)

/-- The change of phase writes neither an observable byte nor the line (R240). -/
theorem LineFollows.advancePhase {s u : State} (h : LineFollows s u) : LineFollows s (advancePhase u) := h

theorem mainStep_lineFollows {b : Byte} {a : Half} {r : Bool} {s t : State} (h : mainStep b a r s = .next t) :
    LineFollows s t ∨ (s.mlPhase = .command ∧ s.cmdPending = true ∧ fetchCommand s = .ok (.ok .reset)) := by
  unfold mainStep at h
  split at h
  · exact .inl (lineFollows_of_next h (buttonSample_lineFollows b s).advancePhase)
  · exact .inl (lineFollows_of_next h (analogSample_lineFollows a s).advancePhase)
  · exact .inl (lineFollows_of_next h (supervise_lineFollows r s).advancePhase)
  · next hphase => exact (commandService_lineFollows h).imp_right fun hreset => ⟨hphase, hreset⟩

/-- Every agent's step follows, or is a reset, by the input or by the message. -/
theorem runEvent_lineFollows {e : Event} {s t : State} (h : runEvent e s = .next t) :
    LineFollows s t ∨ e = .reset ∨
      ((∃ b a r, e = .main b a r) ∧ s.mlPhase = .command ∧ s.cmdPending = true ∧
        fetchCommand s = .ok (.ok .reset)) := by
  cases e with
  | bus c rx => exact .inl (strobe_busStep h).lineFollows
  | main b a r => exact (mainStep_lineFollows h).imp_right fun hreset => .inr ⟨⟨b, a, r, rfl⟩, hreset⟩
  | reset => exact .inr (.inl rfl)
  | tick =>
    refine .inl (lineFollows_of_next h ?_)
    rw [tick_frame]
    exact .inl rfl
  | wake => exact .inl (lineFollows_of_next h (.inl rfl))
  | setFlag f b => exact .inl (lineFollows_of_next h (setFlag_lineFollows _ b s))
  | clockAdvance v => exact .inl (lineFollows_of_next h (.inl rfl))
  | hapticDone ok =>
    refine .inl (lineFollows_of_next h ?_)
    unfold envHapticDone
    split
    · exact .inl rfl
    · exact .inl rfl

@[simp] theorem takeEvent_observable (s : State) : (takeEvent s).observable = s.observable := by
  rw [takeEvent_frame]
  rfl

/-- Every step of the machine follows, or is a reset. -/
theorem step_lineFollows {s t : State} (h : step s = .next t) : LineFollows s t ∨ Views.Resets s := by
  have hcases := runEvent_lineFollows h
  rw [LineFollows, takeEvent_observable, takeEvent_mlPhase, takeEvent_cmdPending, takeEvent_fetchCommand] at hcases
  obtain hfollows | hinput | ⟨hmain, hphase, hpending, hfetch⟩ := hcases
  · exact .inl hfollows
  · exact .inr (.inl hinput)
  · exact .inr (.inr ⟨⟨hmain, hphase⟩, hpending, hfetch⟩)

end Sys2Proof.Machine

namespace Sys2Proof.Proofs

open Sys2Proof.Machine

/-- Settles O48: a step that is no reset keeps the observable bytes or leaves the line asserted (R327). -/
theorem observableChangeAssertsLine : Obligations.ObservableChangeAssertsLine := by
  intro s t k h hk hne
  refine (step_lineFollows h).imp_left fun hfollows => ?_
  obtain hkept | harmed := hfollows
  · exact absurd (State.observable_eq_iff.mp hkept k hk) hne
  · exact harmed

/-- Settles O50: a transport error writes its own counter and cause, a protocol error the other two (R312, R313). -/
theorem raiseCountsAndRecords : Obligations.RaiseCountsAndRecords := by
  intro s c
  refine ⟨_, rfl, sameInbound_of_ib (by rw [raise_frame]), ?_⟩
  split
  case isTrue htransport =>
    rw [raise_of_transport (decide_eq_true htransport)]
    exact ⟨rfl, satInc_toNat s.busErrCnt⟩
  case isFalse hprotocol =>
    rw [raise_of_protocol (decide_eq_false hprotocol)]
    exact ⟨rfl, satInc_toNat s.msgDropCnt⟩

end Sys2Proof.Proofs
end

section
/-! PROOFS. Reset and hazards (`70_reset_and_hazards.md`). A write that goes on past the capacity is a run of strobes in
two parts: those that fill the buffer, and those that find no write open (R386). A pending command waits for the main
loop to come round to phase `Command` (R382). -/

namespace Sys2Proof.Machine

/-! ### Feeding several events -/

/-- A fed event that answers hands its state to the events after it. -/
theorem feedAll_cons_of_next {e : Event} {s t : State} (h : feed e s = .next t) (es : List Event) :
    feedAll (e :: es) s = feedAll es t := by
  rw [feedAll, h, nextOf, Option.bind_some]

/-- The events of a list are fed after those of the list before it. -/
theorem feedAll_append_of_some {es : List Event} {s t : State} (h : feedAll es s = some t) (fs : List Event) :
    feedAll (es ++ fs) s = feedAll fs t := by
  induction es generalizing s with
  | nil =>
    obtain rfl : s = t := Option.some.inj h
    rfl
  | cons e es ih =>
    obtain ⟨u, hu, hes⟩ := Option.bind_eq_some_iff.mp h
    rw [List.cons_append, feedAll, hu, Option.bind_some, ih hes]

/-! ### A write past the capacity (R206, R207, R386) -/

/-- The strobes that carry the bytes of a write, one `DRX` for each (R141). -/
abbrev dataStrobes (bs : List Byte) : List Event := bs.map fun b => .bus 0b01000 b

/-- In an open write, exactly the bytes that are missing fill the buffer from `rx_len` on, and leave their command
pending (R206). -/
theorem feedAll_dataStrobes_full (bs : List Byte) {s : State} (hr : s.busState = .receivingCommand)
    (hroom : s.rxLen < s.params.cap) (hfull : s.rxLen + bs.length = s.params.cap) :
    feedAll (dataStrobes bs) s = some { s with
      ib := Memory.writeN s.ib s.rxLen bs, rxLen := s.params.cap, cmdPending := true, busState := .idle
      out := ⟨some .complete, none, none⟩ } := by
  induction bs generalizing s with
  | nil => exact absurd hfull hroom.ne
  | cons b bs ih =>
    rw [List.length_cons] at hfull
    by_cases hmore : s.rxLen + 1 < s.params.cap
    · rw [dataStrobes, List.map_cons, feedAll_cons_of_next (feed_drx_open hr hmore b)]
      exact ih hr hmore (by dsimp only; omega)
    · have hlast : s.rxLen + 1 = s.params.cap := by omega
      obtain rfl : bs = [] := List.eq_nil_of_length_eq_zero (by omega)
      rw [dataStrobes, List.map_cons, feedAll_cons_of_next (feed_drx_full hr hlast b), hlast]
      rfl

/-- `DRX` outside a write is counted, refused, and not stored (R207). -/
theorem feed_drx_stray {s : State} (hr : s.busState ≠ .receivingCommand) (b : Byte) :
    feed (.bus 0b01000 b) s = .next { s with
      busErrCnt := satInc s.busErrCnt, busErrLast := 3, busState := .idle, out := ⟨some .nack, none, none⟩ } := by
  rw [feed_eq]
  exact exec_drx_stray (s := { s with out := .quiet }) hr b

/-- Every byte sent outside a write is refused and counted by itself (R207, R386). -/
theorem feedAll_dataStrobes_stray (b : Byte) (bs : List Byte) {s : State} (hr : s.busState ≠ .receivingCommand) :
    feedAll (dataStrobes (b :: bs)) s = some { s with
      busErrCnt := satInc^[bs.length + 1] s.busErrCnt, busErrLast := 3, busState := .idle
      out := ⟨some .nack, none, none⟩ } := by
  rw [dataStrobes, List.map_cons, feedAll_cons_of_next (feed_drx_stray hr b)]
  induction bs generalizing b s with
  | nil => rfl
  | cons c bs ih =>
    rw [List.map_cons, feedAll_cons_of_next (feed_drx_stray (by simp) c)]
    exact ih c (by simp)

/-- A saturating counter after several increments (R159 b, c). -/
theorem iterate_satInc_toNat {n : Nat} (k : Nat) (v : BitVec n) :
    (satInc^[k] v).toNat = min (v.toNat + k) (2 ^ n - 1) := by
  induction k generalizing v with
  | zero =>
    have hv := v.isLt
    simp only [Function.iterate_zero, id]
    omega
  | succ k ih =>
    rw [Function.iterate_succ_apply, ih, satInc_toNat]
    omega

/-- Of a write past the capacity, started outside a write and with none pending, the first `CAP` bytes stand in the
buffer and are pending; each byte after them has counted one error (R386). -/
theorem feedAll_overlongWrite {s : State} {bs : List Byte} (hp : s.cmdPending = false)
    (hr : s.busState ≠ .receivingCommand) (hover : s.params.cap < bs.length) :
    feedAll (.bus 0b00010 0 :: dataStrobes bs) s = some { s with
      ib := Memory.writeN s.ib 0 (bs.take s.params.cap), rxLen := s.params.cap, cmdPending := true, busState := .idle
      busErrCnt := satInc^[bs.length - s.params.cap] s.busErrCnt, busErrLast := 3
      out := ⟨some .nack, none, none⟩ } := by
  obtain ⟨c, rest, hrest⟩ := List.exists_cons_of_length_pos
    (show 0 < (bs.drop s.params.cap).length by rw [List.length_drop]; omega)
  have hcount : rest.length + 1 = bs.length - s.params.cap := by
    rw [← List.length_drop, hrest, List.length_cons]
  have hsplit : dataStrobes bs = dataStrobes (bs.take s.params.cap) ++ dataStrobes (c :: rest) := by
    rw [dataStrobes, ← List.map_append, ← hrest, List.take_append_drop]
  have hfill := feedAll_dataStrobes_full (bs.take s.params.cap)
    (s := { s with rxLen := 0, busState := .receivingCommand, out := ⟨some .ack, none, none⟩ })
    rfl s.params.cap_pos (by rw [List.length_take]; dsimp only; omega)
  rw [feedAll_cons_of_next (feed_sow_accepted hp hr 0), hsplit, feedAll_append_of_some hfill,
    feedAll_dataStrobes_stray c rest (by simp), hcount]

/-- A buffer that a list's first `n` bytes were written into, read at any address (R29, R206). -/
theorem Memory.read_writeN_take {m : Memory} (h : Memory.wf m = true) {bs : List Byte} {n : Nat} (hn : n ≤ bs.length)
    (a : Nat) :
    Memory.read (Memory.writeN m 0 (bs.take n)) a = if a < n then bs.getD a 0 else Memory.read m a := by
  rw [Memory.read_writeN h, List.length_take, min_eq_left hn]
  by_cases ha : a < n
  · simp [ha, List.getD_eq_getElem?_getD]
  · simp [ha]

/-! ### The main loop comes round to the command service (R240, R382) -/

/-- How many `Main` steps it takes from a phase to the end of the command service (R240). -/
def Phase.stepsToService (p : Phase) : Nat := 4 - (Phase.code p).toNat

theorem Phase.stepsToService_le (p : Phase) : p.stepsToService ≤ 4 := Nat.sub_le _ _

theorem Phase.stepsToService_pos (p : Phase) : 0 < p.stepsToService := Nat.sub_pos_of_lt (Phase.code p).isLt

@[simp] theorem Phase.stepsToService_command : Phase.command.stepsToService = 1 := rfl

/-- Each phase before `Command` is one step further from the service than the next. -/
theorem Phase.stepsToService_of_ne {p : Phase} (h : p ≠ .command) : p.stepsToService = p.next.stepsToService + 1 := by
  cases p with
  | command => exact absurd rfl h
  | _ => rfl

/-- A `Main` step before phase `Command` only hands on to the next phase, as far as the phase goes (R240). -/
theorem mainStep_advances {s : State} (h : s.mlPhase ≠ .command) (b : Byte) (a : Half) (r : Bool) :
    ∃ t, mainStep b a r s = .next t ∧ t.mlPhase = s.mlPhase.next := by
  cases hphase : s.mlPhase with
  | buttons =>
    obtain ⟨hstep, _⟩ := mainStep_buttons b a r hphase
    exact ⟨_, hstep, rfl⟩
  | analog => exact ⟨_, mainStep_analog b a r hphase, rfl⟩
  | supervisor =>
    obtain ⟨hstep, _⟩ := mainStep_supervisor (b := b) (a := a) (r := r) hphase rfl
    exact ⟨_, hstep, rfl⟩
  | command => exact absurd hphase h

/-- A `Main` step in phase `Command` leaves no command pending (R170). -/
theorem mainStep_serves {s : State} (h : s.mlPhase = .command) (b : Byte) (a : Half) (r : Bool) :
    ∃ t, mainStep b a r s = .next t ∧ t.cmdPending = false := by
  obtain ⟨t, ht⟩ := commandService_next s
  refine ⟨t, ?_, commandService_cmdPending ht⟩
  simp only [mainStep, h, ht]

/-- As many `Main` steps as the phase is away from the end of the service leave no command pending (R382). -/
theorem feedAll_main_serves {es : List Event} {s : State} (hmain : ∀ e ∈ es, ∃ b a r, e = .main b a r)
    (hlen : es.length = s.mlPhase.stepsToService) : ∃ t, feedAll es s = some t ∧ t.cmdPending = false := by
  induction es generalizing s with
  | nil => exact absurd hlen s.mlPhase.stepsToService_pos.ne
  | cons e es ih =>
    obtain ⟨⟨b, a, r, rfl⟩, hrest⟩ := List.forall_mem_cons.mp hmain
    have hfeed := feed_eq (.main b a r) s
    rw [List.length_cons] at hlen
    by_cases hphase : s.mlPhase = .command
    · obtain ⟨t, ht, hclear⟩ := mainStep_serves (s := { s with out := .quiet }) hphase b a r
      rw [hphase, Phase.stepsToService_command] at hlen
      obtain rfl : es = [] := List.eq_nil_of_length_eq_zero (by omega)
      exact ⟨t, feedAll_cons_of_next (hfeed.trans ht) [], hclear⟩
    · obtain ⟨u, hu, hnext⟩ := mainStep_advances (s := { s with out := .quiet }) hphase b a r
      rw [Phase.stepsToService_of_ne hphase] at hlen
      rw [feedAll_cons_of_next (hfeed.trans hu)]
      exact ih hrest (by rw [hnext]; dsimp only; omega)

end Sys2Proof.Machine

namespace Sys2Proof.Proofs

open Sys2Proof.Machine

/-- Settles O54: the first `CAP` bytes fill the buffer, which closes the write; every byte after them finds no write open
and is an error 3 by itself (R206, R207, R386). -/
theorem overlongWriteKeepsFirstCapBytes : Obligations.OverlongWriteKeepsFirstCapBytes := by
  intro s bs hs hp hr hover
  refine ⟨_, feedAll_overlongWrite hp hr hover, rfl, rfl, rfl, rfl, ?stored, ?counted, rfl, rfl⟩
  case stored => exact Memory.read_writeN_take hs.ib_wf hover.le
  case counted => exact iterate_satInc_toNat _ s.busErrCnt

/-- Settles O55: the steps up to the end of the command service are at most four, and the service leaves the flag clear
(R240, R382). -/
theorem pendingCommandServedWithinFourMainSteps : Obligations.PendingCommandServedWithinFourMainSteps := by
  intro s es _ hlen hmain
  have hle := s.mlPhase.stepsToService_le
  refine ⟨s.mlPhase.stepsToService, hle, feedAll_main_serves (fun e he => hmain e (List.mem_of_mem_take he)) ?_⟩
  rw [List.length_take, hlen, min_eq_left hle]

/-- Settles O45: the reset input runs `Reset()` alone, which keeps the parameters and the inputs (R360, R361). -/
theorem resetInputResetsEverything : Obligations.ResetInputResetsEverything :=
  fun s => ⟨resetBlock s, rfl, allAtReset_resetBlock s, rfl, rfl, rfl⟩

end Sys2Proof.Proofs
end
